-- ==== Sys2Proof/Word.lean ====
section
/-! DEFINITION. The word types of the device and their plainest arithmetic. The device is little-endian and
counts bits from the least significant bit (R4). -/

namespace Sys2Proof

/-- A 64-bit scalar register or doubleword. -/
abbrev Dword := BitVec 64

/-- A byte of memory. -/
abbrev Byte := BitVec 8

/-- A 5-bit register field. -/
abbrev RegNo := BitVec 5

/-- A module-wide slot number COREID·8 + SLOTID (R21, R47). -/
abbrev SlotNo := BitVec 16

/-- A core's module-wide number die·1024 + cluster·256 + core-in-cluster (R21). -/
abbrev CoreNo := BitVec 13

/-- A compute die, 0 to 7 (R1). -/
abbrev DieNo := BitVec 3

/-- The field of `w` that starts at bit `lo` and has `n` bits (R4). -/
def fld {m : Nat} (w : BitVec m) (lo n : Nat) : BitVec n := w.extractLsb' lo n

/-- `w` with the `n` bits from bit `lo` replaced by `v`. -/
def setFld {m n : Nat} (w : BitVec m) (lo : Nat) (v : BitVec n) : BitVec m :=
  (w &&& ~~~((BitVec.allOnes n).setWidth m <<< lo)) ||| (v.setWidth m <<< lo)

/-- Division of naturals rounded up; 0 when the divisor is 0. -/
def ceilDiv (a b : Nat) : Nat := (a + b - 1) / b

/-- The number of one bits of `v`. -/
def popCount {n : Nat} (v : BitVec n) : Nat :=
  (List.range n).foldl (fun acc i => if v.getLsbD i then acc + 1 else acc) 0

/-- The number of zero bits above the highest one bit; `n` for zero. -/
def leadZeros {n : Nat} (v : BitVec n) : Nat :=
  if v = 0 then n else n - 1 - v.toNat.log2

/-- The number of zero bits below the lowest one bit; `n` for zero. -/
def trailZeros {n : Nat} (v : BitVec n) : Nat :=
  ((List.range n).find? (fun i => v.getLsbD i)).getD n

/-- `Bool` to a one-bit number. -/
def b2n (b : Bool) : Nat := if b then 1 else 0

end Sys2Proof
end

