-- ==== Sys2Proof/Config.lean ====
section
/-! DEFINITION. What the spec leaves open, as free values: constants without a body, so that no proof can see what they
are. Those applied to a number are applied to the state's counter `drawn`, which every draw advances (log 3). -/

namespace Sys2Proof.Config

/-- Which of the agents that can act takes the next step (R24, R233, R277, R285 leave the order open). -/
opaque schedule : Nat → Nat

/-- How many cycles of a die's clock pass with a step, and of the hub's, number 8 (R3, R25 to R28, R93, R207, R450: time
is left out). -/
opaque elapsed : Nat → Nat → Nat

/-- Whether a TLB still holds a translation that it once held (R383 to R387 fix no replacement). -/
opaque tlbHolds : Nat → Bool

/-- Whether the instruction cache still holds a line that it once held (R452 fixes no replacement). -/
opaque icacheHolds : Nat → Bool

/-- Whether a slot issues the instruction that it had fetched ahead, where it may have (R452). -/
opaque fetchedAhead : Nat → Bool

/-- What a peer module answers to a load, an atomic or a cell operation (R413): its memory is its own. -/
opaque peerReply : Nat → BitVec 1024

/-- Whether a peer's home answers an access with the poison indication (R423): the line there is POISON. -/
opaque peerPoison : Nat → Bool

/-- How many of the instructions after one that traps POISON the slot reaches before the reply (R423): their stores are
performed. -/
opaque earlyStores : Nat → Nat

/-- Whether a bring-up phase passes (R438): the hardware's answer. -/
opaque phaseOk : Nat → Bool

/-- Which host ports and peer ports lock (R438, R439). -/
opaque hostPorts : Nat → BitVec 2
opaque peerPorts : Nat → BitVec 8

/-- The first 256 bits of SHAKE256 of a byte string (R446 to R448). The spec names the function and does not define it. -/
opaque shake256 : List Byte → BitVec 256

/-- The ROM's SHAKE256 digest (R438, R448). -/
opaque romDigest : BitVec 256

/-- Whether an image's XMSS^MT signature verifies against the vendor key (R446), and the version it carries. -/
opaque signatureOk : List Byte → Bool
opaque imageVersion : List Byte → BitVec 32

/-- The XMSS signature over 32 bytes with an identity-key index (R447, R448): 2820 bytes. -/
opaque xmssSign : BitVec 256 → Nat → List Byte

/-- Whether an access to the host or the safe tier fails (result 7 of R441). -/
opaque transferOk : Nat → Bool

/-- What a tile slot holds where a program has stored to the slot area (R314 defines no effect on visibility): a word. -/
opaque slotWord : Nat → BitVec 32

/-- Which of the free team contexts of a cluster an admission takes (R218 does not say). -/
opaque teamContext : Nat → Nat

/-- Where the firmware region's RCB lies and what the firmware writes there, and the descriptors and numbers of its own
queues (R162 states none of them). -/
opaque firmwareRcb : Nat
opaque firmwareImage : BitVec 2048
opaque firmwareQueues : List (BitVec 12 × BitVec 512)

/-- The length of a firmware image: R439 gives its address alone. -/
opaque firmwareLength : Nat → Nat

/-- What the power sensors of a die report (R451), and the microseconds that a checkpoint takes (R444). -/
opaque sensor : Nat → BitVec 16
opaque hubMicros : Nat → BitVec 64

/-- A byte of the built nodes for which a node has no child: of the inputs, the radius and the byte's place alone (R337 does
not state it, R338: the output bits depend only on the inputs and R). -/
opaque buildByte : List Nat → Nat → Nat → BitVec 8

/-- A byte of a build's scratch (R338 states no contents). -/
opaque scratchByte : Nat → BitVec 8

/-- What a texture form returns where a coordinate or a gradient is a NaN or an infinity (R331, R332 state no value). -/
opaque texResult : Nat → BitVec 32

/-- What a ray test answers where its exact values do not exist: infinite inputs (R335, R336 state no value). -/
opaque rayResult : Nat → BitVec 32

end Sys2Proof.Config
end

