-- ==== Sys2Proof/Machine/Num.lean ====
section
/-! DEFINITION. The 28 number formats, exact values, the one rounding function and exact accumulation (R33 to R61). -/

namespace Sys2Proof.Machine

/-! ### Tags (R33) -/

/-- The width of an element in memory; for an MX tag, of an element code (R33, R43). -/
def tagMem (t : Nat) : Nat :=
  match t with
  | 0 | 13 => 64
  | 1 | 14 => 32
  | 2 | 3 | 15 => 16
  | 4 | 5 | 9 | 10 | 16 | 19 | 22 | 23 | 27 => 8
  | 6 | 7 | 11 | 12 | 24 | 25 => 6
  | 8 | 17 | 20 | 26 => 4
  | 18 => 2
  | 21 => 1
  | _ => 0

/-- The width of an element in a register (R33): a 6-bit format takes 8 bits (R14). -/
def tagReg (t : Nat) : Nat := if tagMem t = 6 then 8 else tagMem t

/-- The significand width p (R33). -/
def tagP (t : Nat) : Nat :=
  match t with
  | 0 => 53 | 1 => 24 | 2 => 11 | 3 => 8 | 4 => 4 | 5 => 3 | 6 => 3 | 7 => 4 | 8 => 2
  | 9 => 6 | 10 => 5 | 11 => 4 | 12 => 3 | 13 => 64 | 14 => 32 | 15 => 16 | 16 => 8 | 17 => 4 | 18 => 2
  | 19 => 8 | 20 => 4 | 21 => 1 | 22 => 4 | 23 => 3 | 24 => 3 | 25 => 4 | 26 => 2 | 27 => 8
  | _ => 0

/-- F tags: floating-point. -/
def tagIsF (t : Nat) : Bool := t ≤ 8
/-- T tags: tapered. -/
def tagIsT (t : Nat) : Bool := 9 ≤ t && t ≤ 12
/-- I tags: signed integers. -/
def tagIsI (t : Nat) : Bool := 13 ≤ t && t ≤ 18
/-- N tags: unsigned integers. -/
def tagIsN (t : Nat) : Bool := t = 19 || t = 20
/-- B tags: binary. -/
def tagIsB (t : Nat) : Bool := t = 21
/-- MX tags. -/
def tagIsMx (t : Nat) : Bool := 22 ≤ t && t ≤ 27

/-- The element format of an MX tag (R43); mxi8 answers i8. Any other tag is its own. -/
def mxElem (t : Nat) : Nat :=
  match t with
  | 22 => 4 | 23 => 5 | 24 => 6 | 25 => 7 | 26 => 8 | 27 => 16 | _ => t

/-- The bytes of an MX block (R43). -/
def mxBlockBytes (t : Nat) : Nat :=
  match t with
  | 22 | 23 | 27 => 33 | 24 | 25 => 25 | 26 => 17 | _ => 0

/-- λ of R55. -/
def tagLambda (t : Nat) : Int :=
  match t with
  | 1 => -149 | 2 => -24 | 3 => -133 | 4 => -9 | 5 => -16 | 6 => -4 | 7 => -3 | 8 => -1 | 9 => -6 | 10 => -12 | 11 => -4
  | 12 => -8 | 22 => -136 | 23 => -143 | 24 => -131 | 25 => -130 | 26 => -128 | 27 => -133 | _ => 0

/-- τ of R55. -/
def tagTau (t : Nat) : Int :=
  match t with
  | 1 => 128 | 2 => 16 | 3 => 128 | 4 => 9 | 5 => 16 | 6 => 5 | 7 => 3 | 8 => 3 | 9 => 7 | 10 => 13 | 11 => 5 | 12 => 9
  | 13 => 64 | 14 => 32 | 15 => 16 | 16 => 8 | 17 => 4 | 18 => 2 | 19 => 8 | 20 => 4 | 21 => 1
  | 22 => 136 | 23 => 143 | 24 => 132 | 25 => 130 | 26 => 130 | 27 => 129 | _ => 0

/-! ### Exact values -/

/-- An exact value: a finite one is ±num ÷ den with den not 0, and a zero keeps its sign. -/
inductive XV where
  | nan (sig : Bool)
  | inf (neg : Bool)
  | fin (neg : Bool) (num den : Nat)
deriving DecidableEq, Repr, Inhabited

/-- num · 2^e ÷ den. -/
def XV.scaled (neg : Bool) (num den : Nat) (e : Int) : XV :=
  if 0 ≤ e then .fin neg (num * 2 ^ e.toNat) den else .fin neg num (den * 2 ^ (-e).toNat)

def XV.ofInt (i : Int) : XV := .fin (i < 0) i.natAbs 1
def XV.zero : XV := .fin false 0 1

def XV.isNan : XV → Bool | .nan _ => true | _ => false
def XV.isSig : XV → Bool | .nan b => b | _ => false
def XV.isInf : XV → Bool | .inf _ => true | _ => false
def XV.isZero : XV → Bool | .fin _ n _ => n = 0 | _ => false
/-- The sign of a number. -/
def XV.neg? : XV → Bool | .nan _ => false | .inf b => b | .fin b _ _ => b
def XV.negate : XV → XV | .nan b => .nan b | .inf b => .inf !b | .fin b n d => .fin (!b) n d
def XV.abs : XV → XV | .nan b => .nan b | .inf _ => .inf false | .fin _ n d => .fin false n d
/-- Multiplication by 2^e, exact. -/
def XV.scale (x : XV) (e : Int) : XV :=
  match x with
  | .fin b n d => XV.scaled b n d e
  | y => y
/-- A finite value as num ÷ den with a signed numerator; 0 for the rest. -/
def XV.num : XV → Int | .fin b n _ => if b then -(n : Int) else n | _ => 0
def XV.den : XV → Nat | .fin _ _ d => d | _ => 1

/-- floor(log2 (n ÷ d)) for n, d not 0. -/
def ilog2 (n d : Nat) : Int :=
  let g : Int := (n.log2 : Int) - (d.log2 : Int)
  let le := if 0 ≤ g then d * 2 ^ g.toNat ≤ n else d ≤ n * 2 ^ (-g).toNat
  if le then g else g - 1

/-- a < b; false if either is a NaN. -/
def XV.lt (a b : XV) : Bool :=
  match a, b with
  | .nan _, _ => false
  | _, .nan _ => false
  | .inf x, .inf y => x && !y
  | .inf x, _ => x
  | _, .inf y => !y
  | a, b => a.num * b.den < b.num * a.den

/-- a = b; −0 = +0; false if either is a NaN. -/
def XV.eq (a b : XV) : Bool :=
  match a, b with
  | .nan _, _ => false
  | _, .nan _ => false
  | .inf x, .inf y => x = y
  | .inf _, _ => false
  | _, .inf _ => false
  | a, b => a.num * b.den = b.num * a.den

def XV.le (a b : XV) : Bool := a.lt b || a.eq b

/-! ### Flags (R20) -/

def fNV : BitVec 5 := 16
def fDZ : BitVec 5 := 8
def fOF : BitVec 5 := 4
def fUF : BitVec 5 := 2
def fNX : BitVec 5 := 1
def flagIf (b : Bool) (f : BitVec 5) : BitVec 5 := if b then f else 0

/-! ### Formats -/

/-- How a floating-point format uses its top exponent (R37, R38). -/
inductive FpKind where
  | ieee | e4m3 | none
deriving DecidableEq, Repr

structure FpFmt where
  eb : Nat
  bias : Nat
  fb : Nat
  kind : FpKind
deriving DecidableEq, Repr

def fpFmt (t : Nat) : FpFmt :=
  match t with
  | 0 => ⟨11, 1023, 52, .ieee⟩
  | 1 => ⟨8, 127, 23, .ieee⟩
  | 2 => ⟨5, 15, 10, .ieee⟩
  | 3 => ⟨8, 127, 7, .ieee⟩
  | 4 => ⟨4, 7, 3, .e4m3⟩
  | 5 => ⟨5, 15, 2, .ieee⟩
  | 6 => ⟨3, 3, 2, .none⟩
  | 7 => ⟨2, 1, 3, .none⟩
  | _ => ⟨2, 1, 1, .none⟩

/-- The code of the largest finite magnitude. -/
def FpFmt.maxCode (f : FpFmt) : Nat :=
  match f.kind with
  | .ieee => (2 ^ f.eb - 1) * 2 ^ f.fb - 1
  | .e4m3 => 2 ^ (f.eb + f.fb) - 2
  | .none => 2 ^ (f.eb + f.fb) - 1

/-- The canonical NaN's code (R51); for a format without NaN, +0 (R49). -/
def FpFmt.nanCode (f : FpFmt) : Nat :=
  match f.kind with
  | .ieee => (2 ^ f.eb - 1) * 2 ^ f.fb + 2 ^ (f.fb - 1)
  | .e4m3 => 2 ^ (f.eb + f.fb) - 1
  | .none => 0

/-- decode for a floating-point tag (R36 to R39). -/
def decodeFp (t c : Nat) : XV :=
  let f := fpFmt t
  let neg := c.testBit (f.eb + f.fb)
  let e := c / 2 ^ f.fb % 2 ^ f.eb
  let m := c % 2 ^ f.fb
  let top := 2 ^ f.eb - 1
  if f.kind = .ieee ∧ e = top then
    if m = 0 then .inf neg else .nan (t ≤ 3 && !m.testBit (f.fb - 1))
  else if f.kind = .e4m3 ∧ e = top ∧ m = 2 ^ f.fb - 1 then .nan false
  else if e = 0 then XV.scaled neg m 1 (1 - (f.bias : Int) - f.fb)
  else XV.scaled neg (2 ^ f.fb + m) 1 ((e : Int) - f.bias - f.fb)

/-- The length of the run of bits equal to `b` from bit `i` downward, for at most `fuel` bits. -/
def runLen (q : Nat) (b : Bool) : Nat → Nat → Nat
  | 0, _ => 0
  | fuel + 1, i => if q.testBit i = b then (if i = 0 then 1 else 1 + runLen q b fuel (i - 1)) else 0

/-- The magnitude of a positive tapered pattern of n bits (R40). -/
def taperedMag (n es q : Nat) : Nat × Int :=
  let b := q.testBit (n - 2)
  let m := runLen q b n (n - 2)
  let k : Int := if b then (m : Int) - 1 else -(m : Int)
  let restLen := n - 1 - m - 1
  let rest := q % 2 ^ restLen
  let eBits := if restLen = 0 then 0 else min es restLen
  let e := (rest / 2 ^ (restLen - eBits)) * 2 ^ (es - eBits)
  let fLen := restLen - eBits
  let f := rest % 2 ^ fLen
  (2 ^ fLen + f, k * 2 ^ es + e - fLen)

/-- The bits and exponent bits of a tapered tag (R40). -/
def taperedShape (t : Nat) : Nat × Nat :=
  match t with
  | 9 => (8, 0) | 10 => (8, 1) | 11 => (6, 0) | _ => (6, 1)

/-- decode for a tapered tag (R40). -/
def decodeTapered (t c : Nat) : XV :=
  let (n, es) := taperedShape t
  let p := c % 2 ^ n
  if p = 0 then XV.zero
  else if p = 2 ^ (n - 1) then .nan false
  else
    let neg := p.testBit (n - 1)
    let (m, e) := taperedMag n es (if neg then 2 ^ n - p else p)
    XV.scaled neg m 1 e

/-- `c` as a two's complement number of `w` bits. -/
def signedOf (w c : Nat) : Int := if c % 2 ^ w < 2 ^ (w - 1) then (c % 2 ^ w : Nat) else (c % 2 ^ w : Nat) - (2 ^ w : Nat)

/-- The code of `w` bits of an integer. -/
def codeOf (w : Nat) (i : Int) : Nat := (i % (2 ^ w : Nat)).toNat

/-- decode(tag, bits) (R36): an MX code as if its scale were 1 (R34). -/
def decodeTag (t c : Nat) : XV :=
  if tagIsF t then decodeFp t (c % 2 ^ tagMem t)
  else if tagIsT t then decodeTapered t c
  else if tagIsI t then XV.ofInt (signedOf (tagMem t) c)
  else if tagIsN t then XV.ofInt (c % 2 ^ tagMem t : Nat)
  else if tagIsB t then XV.fin (c.testBit 0) 1 1
  else if t = 27 then (XV.ofInt (signedOf 8 c)).scale (-6)
  else decodeFp (mxElem t) (c % 2 ^ tagMem t)

/-! ### Rounding (R45 to R54) -/

/-- The six modes of FRM (R20). -/
inductive RMode where
  | rne | rtz | rdn | rup | rna | rsr
deriving DecidableEq, Repr, Inhabited

def rmodeOf (n : Nat) : RMode :=
  match n with
  | 0 => .rne | 1 => .rtz | 2 => .rdn | 3 => .rup | 4 => .rna | _ => .rsr

/-- The choice of R46 and R47 between the value of smaller and of larger magnitude: `rem ÷ q` is the position of |x|
between them, `odd` that the smaller one's code is odd, `r` the random word. True: the larger. Not asked when rem = 0. -/
def roundUp (m : RMode) (neg odd : Bool) (rem q r : Nat) : Bool :=
  match m with
  | .rne => 2 * rem > q || (2 * rem = q && odd)
  | .rna => 2 * rem ≥ q
  | .rtz => false
  | .rdn => neg
  | .rup => !neg
  | .rsr => 2 ^ 32 ≤ 2 ^ 32 * rem / q + r

/-- A result code and the flags that its conversion sets. -/
structure Rounded where
  code : Nat
  flags : BitVec 5
deriving DecidableEq, Repr, Inhabited

/-- |x| ÷ 2^e as quotient, remainder and divisor. -/
def quotPow (n d : Nat) (e : Int) : Nat × Nat × Nat :=
  let n' := if 0 ≤ e then n else n * 2 ^ (-e).toNat
  let d' := if 0 ≤ e then d * 2 ^ e.toNat else d
  (n' / d', n' % d', d')

/-- round_to for a floating-point target (R46, R49 to R51); `sat`: saturation is named. -/
def roundFp (t : Nat) (m : RMode) (sat : Bool) (x : XV) (r : Nat) : Rounded :=
  let f := fpFmt t
  let sign (b : Bool) : Nat := b2n b * 2 ^ (f.eb + f.fb)
  match x with
  | .nan sig => ⟨f.nanCode, flagIf (sig || f.kind = .none) fNV⟩
  | .inf b => if f.kind = .ieee then ⟨sign b + f.maxCode + 1, 0⟩ else ⟨sign b + f.maxCode, fNV⟩
  | .fin b n d =>
    if n = 0 then ⟨sign b, 0⟩
    else
      let emin : Int := 1 - (f.bias : Int)
      let lg := ilog2 n d
      let e := max lg emin
      let (k, rem, q) := quotPow n d (e - f.fb)
      let inexact := rem ≠ 0
      let k' := if inexact && roundUp m b (k % 2 = 1) rem q r then k + 1 else k
      let c := (e + f.bias - 1).toNat * 2 ^ f.fb + k'
      if f.maxCode < c then
        let toInf := f.kind = .ieee && !sat && (match m with
          | .rne | .rna | .rsr => true
          | .rtz => false
          | .rdn => b
          | .rup => !b)
        ⟨sign b + (if toInf then f.maxCode + 1 else f.maxCode), fOF ||| fNX⟩
      else ⟨sign b + c, flagIf inexact fNX ||| flagIf (inexact && lg < emin) fUF⟩

/-- The greatest positive code below `2^(n-1)` whose value is at most num ÷ den, among the first `fuel` codes. -/
def taperedFloor (n es num den : Nat) : Nat → Nat
  | 0 => 0
  | c + 1 =>
    let (m, e) := taperedMag n es (c + 1)
    let le := if 0 ≤ e then m * 2 ^ e.toNat * den ≤ num else m * den ≤ num * 2 ^ (-e).toNat
    if le then c + 1 else taperedFloor n es num den c

/-- round_to for a tapered target (R41, R46, R49). -/
def roundTapered (t : Nat) (m : RMode) (x : XV) (r : Nat) : Rounded :=
  let (n, es) := taperedShape t
  let top := 2 ^ (n - 1) - 1
  let signed (b : Bool) (c : Nat) : Nat := if b then 2 ^ n - c else c
  match x with
  | .nan sig => ⟨2 ^ (n - 1), flagIf sig fNV⟩
  | .inf _ => ⟨2 ^ (n - 1), fNV⟩
  | .fin b num den =>
    if num = 0 then ⟨0, 0⟩
    else
      let c := taperedFloor n es num den top
      if c = 0 then ⟨signed b 1, fNX ||| fUF⟩
      else
        let (ma, ea) := taperedMag n es c
        let lo : Int := min ea 0
        -- |x|, a and b over one denominator: units of 2^lo ÷ den
        let xa := num * 2 ^ (-lo).toNat
        let va := ma * 2 ^ (ea - lo).toNat * den
        if xa = va then ⟨signed b c, 0⟩
        else if c = top then ⟨signed b top, fOF ||| fNX⟩
        else
          let (mb, eb) := taperedMag n es (c + 1)
          let lo := min lo eb
          let xa := num * 2 ^ (-lo).toNat
          let va := ma * 2 ^ (ea - lo).toNat * den
          let vb := mb * 2 ^ (eb - lo).toNat * den
          ⟨signed b (if roundUp m b (c % 2 = 1) (xa - va) (vb - va) r then c + 1 else c), fNX⟩

/-- round_to for an integer target of width w (R52). -/
def roundInt (signed : Bool) (w : Nat) (m : RMode) (x : XV) (r : Nat) : Rounded :=
  let hi : Int := if signed then 2 ^ (w - 1) - 1 else 2 ^ w - 1
  let lo : Int := if signed then -(2 ^ (w - 1)) else 0
  match x with
  | .nan _ => ⟨0, fNV⟩
  | .inf b => ⟨codeOf w (if b then lo else hi), fNV⟩
  | .fin b n d =>
    let k := n / d
    let rem := n % d
    let inexact := rem ≠ 0
    let k' := if inexact && roundUp m b (k % 2 = 1) rem d r then k + 1 else k
    let v : Int := if b then -(k' : Int) else k'
    if v < lo then ⟨codeOf w lo, fNV ||| fNX⟩
    else if hi < v then ⟨codeOf w hi, fNV ||| fNX⟩
    else ⟨codeOf w v, flagIf inexact fNX⟩

/-- round_to for the b1 target (R52). -/
def roundB1 (x : XV) : Rounded :=
  match x with
  | .nan _ => ⟨0, fNV⟩
  | .inf b => ⟨b2n b, fNV⟩
  | .fin b n d => ⟨b2n (b && n ≠ 0), flagIf (n ≠ d) fNX⟩

/-- round_to(tag, mode, x) (R45). For an MX tag, the element code under a scale of 1, which always saturates (R39, R54). -/
def roundTo (t : Nat) (m : RMode) (sat : Bool) (x : XV) (r : Nat) : Rounded :=
  if tagIsF t then roundFp t m sat x r
  else if tagIsT t then roundTapered t m x r
  else if tagIsI t then roundInt true (tagMem t) m x r
  else if tagIsN t then roundInt false (tagMem t) m x r
  else if tagIsB t then roundB1 x
  else if t = 27 then roundInt true 8 m (x.scale 6) r
  else roundFp (mxElem t) m true x r

/-- round_to(e8m0, x) (R53). -/
def roundE8m0 (x : XV) : Rounded :=
  match x with
  | .nan sig => ⟨255, flagIf sig fNV⟩
  | .inf _ => ⟨255, fNV⟩
  | .fin _ n d =>
    if n = 0 then ⟨0, fNX⟩
    else
      let c := max 0 (min 254 (ilog2 n d + 127))
      let (q, rem, _) := quotPow n d (c - 127)
      ⟨c.toNat, flagIf (!(q = 1 && rem = 0)) fNX⟩

/-- The value of an E8M0 scale (R44): none for NaN. -/
def e8m0Exp (c : Nat) : Option Int := if c % 256 = 255 then none else some ((c % 256 : Nat) - 127)

/-- The random word of R47 for element `i` in module-wide slot `n`. -/
def srWord (seed : Dword) (n : SlotNo) (i : Nat) : Nat :=
  let x0 : Dword := seed + 0x9E3779B97F4A7C15 * BitVec.ofNat 64 (1 + i + 2 ^ 32 * n.toNat)
  let x1 := (x0 ^^^ (x0 >>> 30)) * 0xBF58476D1CE4E5B9
  let x2 := (x1 ^^^ (x1 >>> 27)) * 0x94D049BB133111EB
  let x3 := x2 ^^^ (x2 >>> 31)
  x3.toNat / 2 ^ 32

/-! ### Exact operations with the special cases of R122 -/

/-- An exact result and the flags that its operands raise. -/
structure XRes where
  val : XV
  flags : BitVec 5 := 0
deriving DecidableEq, Repr, Inhabited

def nvSig (a b : XV) : BitVec 5 := flagIf (a.isSig || b.isSig) fNV

/-- The exact sum; `rdn`: an exact zero of opposite signs is −0. -/
def XV.add (rdn : Bool) (a b : XV) : XRes :=
  match a, b with
  | .nan x, b => ⟨.nan false, flagIf (x || b.isSig) fNV⟩
  | a, .nan y => ⟨.nan false, flagIf (a.isSig || y) fNV⟩
  | .inf x, .inf y => if x = y then ⟨.inf x, 0⟩ else ⟨.nan false, fNV⟩
  | .inf x, _ => ⟨.inf x, 0⟩
  | _, .inf y => ⟨.inf y, 0⟩
  | .fin x n d, .fin y m e =>
    let s : Int := (if x then -(n : Int) else n) * e + (if y then -(m : Int) else m) * d
    if s = 0 then ⟨.fin (if x = y then x else rdn) 0 1, 0⟩ else ⟨.fin (s < 0) s.natAbs (d * e), 0⟩

def XV.sub (rdn : Bool) (a b : XV) : XRes := XV.add rdn a b.negate

def XV.mul (a b : XV) : XRes :=
  match a, b with
  | .nan x, b => ⟨.nan false, flagIf (x || b.isSig) fNV⟩
  | a, .nan y => ⟨.nan false, flagIf (a.isSig || y) fNV⟩
  | .inf x, b => if b.isZero then ⟨.nan false, fNV⟩ else ⟨.inf (x != b.neg?), 0⟩
  | a, .inf y => if a.isZero then ⟨.nan false, fNV⟩ else ⟨.inf (a.neg? != y), 0⟩
  | .fin x n d, .fin y m e => ⟨.fin (x != y) (n * m) (d * e), 0⟩

def XV.div (a b : XV) : XRes :=
  match a, b with
  | .nan x, b => ⟨.nan false, flagIf (x || b.isSig) fNV⟩
  | a, .nan y => ⟨.nan false, flagIf (a.isSig || y) fNV⟩
  | .inf _, .inf _ => ⟨.nan false, fNV⟩
  | .inf x, b => ⟨.inf (x != b.neg?), 0⟩
  | a, .inf y => ⟨.fin (a.neg? != y) 0 1, 0⟩
  | .fin x n d, .fin y m e =>
    if m = 0 then
      if n = 0 then ⟨.nan false, fNV⟩ else ⟨.inf (x != y), fDZ⟩
    else ⟨.fin (x != y) (n * e) (d * m), 0⟩

/-- The integer square root by bits, from bit `i - 1` down. -/
def isqrtFrom (n : Nat) : Nat → Nat → Nat
  | 0, r => r
  | i + 1, r => isqrtFrom n i (if (r + 2 ^ i) * (r + 2 ^ i) ≤ n then r + 2 ^ i else r)

/-- The square root of a positive value to 120 significant bits: the exact root when it has no more bits than that, else
the middle of the interval that holds it. No rounding boundary of any format, nor of R47's fraction, falls inside that
interval, so that one rounding of it is the rounding of the exact root. -/
def sqrtVal (n d : Nat) : XV :=
  let k : Int := 120 - ilog2 n d / 2
  -- n ÷ d · 4^k
  let n' := if 0 ≤ k then n * 4 ^ k.toNat else n
  let d' := if 0 ≤ k then d else d * 4 ^ (-k).toNat
  let q := n' / d'
  let s := isqrtFrom q 124 0
  if s * s = q ∧ n' % d' = 0 then XV.scaled false s 1 (-k) else XV.scaled false (2 * s + 1) 1 (-k - 1)

def XV.sqrt (a : XV) : XRes :=
  match a with
  | .nan x => ⟨.nan false, flagIf x fNV⟩
  | .inf b => if b then ⟨.nan false, fNV⟩ else ⟨.inf false, 0⟩
  | .fin b n d => if n = 0 then ⟨.fin b 0 1, 0⟩ else if b then ⟨.nan false, fNV⟩ else ⟨sqrtVal n d, 0⟩

/-- c + a × b with one exact sum (R123). -/
def XV.fma (rdn : Bool) (a b c : XV) : XRes :=
  let p := XV.mul a b
  let r := XV.add rdn p.val c
  ⟨r.val, p.flags ||| r.flags⟩

/-- minimumNumber and maximumNumber (R124): −0 orders below +0. -/
def XV.minNum (a b : XV) : XRes :=
  let fl := nvSig a b
  if a.isNan then (if b.isNan then ⟨.nan false, fl⟩ else ⟨b, fl⟩)
  else if b.isNan then ⟨a, fl⟩
  else if a.lt b then ⟨a, fl⟩ else if b.lt a then ⟨b, fl⟩ else if a.neg? then ⟨a, fl⟩ else ⟨b, fl⟩

def XV.maxNum (a b : XV) : XRes :=
  let fl := nvSig a b
  if a.isNan then (if b.isNan then ⟨.nan false, fl⟩ else ⟨b, fl⟩)
  else if b.isNan then ⟨a, fl⟩
  else if b.lt a then ⟨a, fl⟩ else if a.lt b then ⟨b, fl⟩ else if a.neg? then ⟨b, fl⟩ else ⟨a, fl⟩

/-- floor(x) of a finite value. -/
def XV.floor (x : XV) : Int :=
  match x with
  | .fin b n d => if b then -((n + d - 1) / d : Nat) else (n / d : Nat)
  | _ => 0

/-- The smallest of y and 1 that is at least 0, NaN to +0 (CLAMP of R87 for a floating-point result). -/
def XV.clamp01 (y : XV) : XV :=
  match y with
  | .nan _ => XV.zero
  | y => if y.lt XV.zero || y.isZero then XV.zero else if (XV.ofInt 1).lt y then XV.ofInt 1 else y

/-! ### Exact accumulation (R56 to R58) -/

/-- Adding one exact value to an accumulator of W bits in units of 2^u (R56): the sum modulo 2^W as a signed number, and
the sticky bits. The value is a multiple of the unit; what is below it is dropped towards zero. -/
structure Accum where
  acc : Int := 0
  nan : Bool := false
  pinf : Bool := false
  ninf : Bool := false
deriving DecidableEq, Repr, Inhabited

/-- An integer as the two's complement number of its W low bits. -/
def wrapS (w : Nat) (i : Int) : Int := signedOf w (codeOf w i)

/-- x ÷ 2^u as an integer, truncated. -/
def unitsOf (x : XV) (u : Int) : Int :=
  match x with
  | .fin b n d =>
    let (k, _, _) := quotPow n d u
    if b then -(k : Int) else k
  | _ => 0

def Accum.add (w : Nat) (u : Int) (a : Accum) (x : XV) : Accum :=
  match x with
  | .nan _ => { a with nan := true }
  | .inf true => { a with ninf := true }
  | .inf false => { a with pinf := true }
  | x => { a with acc := wrapS w (a.acc + unitsOf x u) }

/-- Adding a product of two values (R56). -/
def Accum.addProd (w : Nat) (u : Int) (a : Accum) (x y : XV) : Accum := a.add w u (XV.mul x y).val

def Accum.join (w : Nat) (a b : Accum) : Accum :=
  ⟨wrapS w (a.acc + b.acc), a.nan || b.nan, a.pinf || b.pinf, a.ninf || b.ninf⟩

/-- The value that reading an accumulator forms, and NV for a NaN (R57). -/
def Accum.value (u : Int) (a : Accum) : XRes :=
  if a.nan || (a.pinf && a.ninf) then ⟨.nan false, fNV⟩
  else if a.pinf then ⟨.inf false, 0⟩
  else if a.ninf then ⟨.inf true, 0⟩
  else ⟨XV.scaled (a.acc < 0) a.acc.natAbs 1 u, 0⟩

/-- The unit of a product accumulator for tags a and b (R56). -/
def prodUnit (a b : Nat) : Int := tagLambda a + tagLambda b

/-- The fold of one block of an f64 sum into its running value (R60), a code, with the flags of the fold. -/
def f64Fold (running : Nat) (vals : List XV) : Nat × BitVec 5 :=
  let nan := vals.any XV.isNan
  let pinf := vals.any fun x => x.isInf && !x.neg?
  let ninf := vals.any fun x => x.isInf && x.neg?
  let run := decodeTag 0 running
  let fold (v : XV) (fl : BitVec 5) : Nat × BitVec 5 :=
    let y := XV.add false run v
    let q := roundTo 0 .rne false y.val 0
    (q.code, fl ||| y.flags ||| q.flags)
  if nan || (pinf && ninf) then fold (.nan false) fNV
  else if pinf then fold (.inf false) 0
  else if ninf then fold (.inf true) 0
  else
    let live := vals.filter fun x => !x.isZero
    match live.map fun x => ilog2 x.num.natAbs x.den with
    | [] => (running, 0)
    | e :: es =>
      let u := es.foldl max e - 631
      let b := live.foldl (fun (a : Int) x => a + unitsOf x u) 0
      if b = 0 then (running, 0) else fold (XV.scaled (b < 0) b.natAbs 1 u) 0

/-- The width of a range's partial for add on a tag (R58). -/
def partialWidth (t : Nat) : Nat := 64 * (((tagTau t - tagLambda t + 40) + 63) / 64).toNat

/-- The signed sum field of a partial has W − 3 bits (R58). -/
def partialSumBits (t : Nat) : Nat := partialWidth t - 3

end Sys2Proof.Machine
end

