-- ==== Sys2Proof/Syntax.lean ====
section
/-! DEFINITION. The instructions of the device and its other indivisible operations and events: one constructor per
row of the opcode table. Rows with a word are the core's instructions (R62 to R82, R424, R429, R431) and the
memory cores' stream instructions (the `mc` constructors, R346). Rows without a word are operations and events
that software reaches through another word (a command register, the modifier prefix) or that the device, the host,
a peer or the passage of time brings about: they have no operand field, and the data that names their object (a slot,
a command, a die, a packet) is the state's event argument, which the step sets when it takes the event.
The rows with fields stand first. -/

namespace Sys2Proof

/-- One constructor per row of the opcode table. Field names are the table's; widths are the fields' widths. -/
inductive Instr where
  /-- ADDI (R95). Adds the sign-extended imm12 to rs1 and writes the sum to rd. -/
  | addi (d a : BitVec 5) (i : BitVec 12)
  /-- ANDI (R95). Bitwise and of rs1 with the sign-extended imm12. -/
  | andi (d a : BitVec 5) (i : BitVec 12)
  /-- ORI (R95). Bitwise or of rs1 with the sign-extended imm12. -/
  | ori (d a : BitVec 5) (i : BitVec 12)
  /-- XORI (R95). Bitwise xor of rs1 with the sign-extended imm12. -/
  | xori (d a : BitVec 5) (i : BitVec 12)
  /-- CLTI (R99). Signed compare of rs1 below the immediate; writes 0 or 1 and sets FLAGS. -/
  | clti (d a : BitVec 5) (i : BitVec 12)
  /-- CLTIU (R99). Unsigned compare of rs1 below the immediate; writes 0 or 1 and sets FLAGS. -/
  | cltiu (d a : BitVec 5) (i : BitVec 12)
  /-- SLLI (R96). Shifts rs1 left by an immediate amount. -/
  | slli (d a : BitVec 5) (s : BitVec 6)
  /-- SRLI (R96). Shifts rs1 right logically by an immediate amount. -/
  | srli (d a : BitVec 5) (s : BitVec 6)
  /-- SRAI (R96). Shifts rs1 right arithmetically by an immediate amount. -/
  | srai (d a : BitVec 5) (s : BitVec 6)
  /-- RORI (R96). Rotates rs1 right by an immediate amount. -/
  | rori (d a : BitVec 5) (s : BitVec 6)
  /-- ADD (R95). Writes rs1 + rs2 modulo 2^64 to rd. -/
  | add (d a b : BitVec 5)
  /-- SUB (R95). Writes rs1 - rs2 modulo 2^64 to rd. -/
  | sub (d a b : BitVec 5)
  /-- AND (R95). Bitwise and of rs1 and rs2. -/
  | and (d a b : BitVec 5)
  /-- OR (R95). Bitwise or of rs1 and rs2. -/
  | or (d a b : BitVec 5)
  /-- XOR (R95). Bitwise xor of rs1 and rs2. -/
  | xor (d a b : BitVec 5)
  /-- ANDN (R95). Writes rs1 and not rs2. -/
  | andn (d a b : BitVec 5)
  /-- SLL (R96). Shifts rs1 left by rs2[5:0]. -/
  | sll (d a b : BitVec 5)
  /-- SRL (R96). Shifts rs1 right logically by rs2[5:0]. -/
  | srl (d a b : BitVec 5)
  /-- SRA (R96). Shifts rs1 right arithmetically by rs2[5:0]. -/
  | sra (d a b : BitVec 5)
  /-- ROR (R96). Rotates rs1 right by rs2[5:0]. -/
  | ror (d a b : BitVec 5)
  /-- MIN (R95). Writes the signed smaller of rs1 and rs2. -/
  | min (d a b : BitVec 5)
  /-- MINU (R95). Writes the unsigned smaller of rs1 and rs2. -/
  | minu (d a b : BitVec 5)
  /-- MAX (R95). Writes the signed larger of rs1 and rs2. -/
  | max (d a b : BitVec 5)
  /-- MAXU (R95). Writes the unsigned larger of rs1 and rs2. -/
  | maxu (d a b : BitVec 5)
  /-- MUL (R97). Writes the low 64 bits of the product. -/
  | mul (d a b : BitVec 5)
  /-- MULH (R97). Writes the high 64 bits of the signed product. -/
  | mulh (d a b : BitVec 5)
  /-- MULHU (R97). Writes the high 64 bits of the unsigned product. -/
  | mulhu (d a b : BitVec 5)
  /-- MULHSU (R97). Writes the high 64 bits of the signed-by-unsigned product. -/
  | mulhsu (d a b : BitVec 5)
  /-- DIV (R98). Signed division truncating toward zero, saturating on overflow and division by zero. -/
  | div (d a b : BitVec 5)
  /-- DIVU (R98). Unsigned division, saturating on division by zero. -/
  | divu (d a b : BitVec 5)
  /-- REM (R98). Signed remainder with the sign of the dividend. -/
  | rem (d a b : BitVec 5)
  /-- REMU (R98). Unsigned remainder. -/
  | remu (d a b : BitVec 5)
  /-- CLZ (R100). Counts leading zeros of rs1. -/
  | clz (d a : BitVec 5)
  /-- CTZ (R100). Counts trailing zeros of rs1. -/
  | ctz (d a : BitVec 5)
  /-- POPC (R100). Counts the 1 bits of rs1. -/
  | popc (d a : BitVec 5)
  /-- BSWAP (R100). Reverses the eight bytes of rs1. -/
  | bswap (d a : BitVec 5)
  /-- BILV2 (R101). Interleaves two 32-bit coordinates into a Morton code. -/
  | bilv2 (d a b : BitVec 5)
  /-- BILV3 (R101). Interleaves three 21-bit coordinates, the third from old rd. -/
  | bilv3 (d a b : BitVec 5)
  /-- BEXT2 (R101). Extracts one coordinate of a 2D Morton code. -/
  | bext2 (d a b : BitVec 5)
  /-- BEXT3 (R101). Extracts one coordinate of a 3D Morton code. -/
  | bext3 (d a b : BitVec 5)
  /-- CEQ (R99). Equality compare writing 0 or 1 and setting FLAGS. -/
  | ceq (d a b : BitVec 5)
  /-- CNE (R99). Inequality compare writing 0 or 1 and setting FLAGS. -/
  | cne (d a b : BitVec 5)
  /-- CLT (R99). Signed less-than compare setting FLAGS. -/
  | clt (d a b : BitVec 5)
  /-- CGE (R99). Signed greater-or-equal compare setting FLAGS. -/
  | cge (d a b : BitVec 5)
  /-- CLTU (R99). Unsigned less-than compare setting FLAGS. -/
  | cltu (d a b : BitVec 5)
  /-- CGEU (R99). Unsigned greater-or-equal compare setting FLAGS. -/
  | cgeu (d a b : BitVec 5)
  /-- FADD (R122). Scalar floating-point addition rounded once. -/
  | fadd (d a b : BitVec 5) (f : BitVec 2) (r : BitVec 3)
  /-- FSUB (R122). Scalar floating-point subtraction rounded once. -/
  | fsub (d a b : BitVec 5) (f : BitVec 2) (r : BitVec 3)
  /-- FMUL (R122). Scalar floating-point multiplication rounded once. -/
  | fmul (d a b : BitVec 5) (f : BitVec 2) (r : BitVec 3)
  /-- FDIV (R122). Scalar floating-point division rounded once. -/
  | fdiv (d a b : BitVec 5) (f : BitVec 2) (r : BitVec 3)
  /-- FSQRT (R122). Scalar floating-point square root rounded once. -/
  | fsqrt (d a : BitVec 5) (f : BitVec 2) (r : BitVec 3)
  /-- FMIN (R124). IEEE minimumNumber of two operands. -/
  | fmin (d a b : BitVec 5) (f : BitVec 2)
  /-- FMAX (R124). IEEE maximumNumber of two operands. -/
  | fmax (d a b : BitVec 5) (f : BitVec 2)
  /-- FMAC (R123). Fused a*b + old rd, rounded once. -/
  | fmac (d a b : BitVec 5) (f : BitVec 2) (r : BitVec 3)
  /-- FNMAC (R123). Fused old rd - a*b, rounded once. -/
  | fnmac (d a b : BitVec 5) (f : BitVec 2) (r : BitVec 3)
  /-- FCEQ (R125). Floating-point equality compare setting FLAGS. -/
  | fceq (d a b : BitVec 5) (f : BitVec 2)
  /-- FCLT (R125). Floating-point less-than compare setting FLAGS. -/
  | fclt (d a b : BitVec 5) (f : BitVec 2)
  /-- FCLE (R125). Floating-point less-or-equal compare setting FLAGS. -/
  | fcle (d a b : BitVec 5) (f : BitVec 2)
  /-- FCVTF (R126). Converts from fmt to the tag in the rs2 field. -/
  | fcvtf (d a t : BitVec 5) (f : BitVec 2) (r : BitVec 3)
  /-- FCVTT (R126). Converts from the tag in the rs2 field to fmt. -/
  | fcvtt (d a t : BitVec 5) (f : BitVec 2) (r : BitVec 3)
  /-- FCLASS (R127). Writes a class word of the operand. -/
  | fclass (d a : BitVec 5) (f : BitVec 2)
  /-- LI (R70). Loads the sign-extended imm16 into rd. -/
  | li (d : BitVec 5) (i : BitVec 16)
  /-- LIS (R70). Loads the sign-extended imm16 shifted left by 16. -/
  | lis (d : BitVec 5) (i : BitVec 16)
  /-- PCSEG (R70). Writes the instruction's 64 KiB segment address plus imm16 segments. -/
  | pcseg (d : BitVec 5) (i : BitVec 16)
  /-- INS16 (R70). Inserts imm16 into halfword h of rd, keeping the other bits. -/
  | ins16 (d : BitVec 5) (h : BitVec 2) (i : BitVec 16)
  /-- BEQ (R103). Branches when rs1 equals rs2. -/
  | beq (a b : BitVec 5) (o : BitVec 13)
  /-- BNE (R103). Branches when rs1 differs from rs2. -/
  | bne (a b : BitVec 5) (o : BitVec 13)
  /-- BLT (R103). Branches when rs1 is signed-less than rs2. -/
  | blt (a b : BitVec 5) (o : BitVec 13)
  /-- BGE (R103). Branches when rs1 is signed greater or equal to rs2. -/
  | bge (a b : BitVec 5) (o : BitVec 13)
  /-- BLTU (R103). Branches when rs1 is unsigned-less than rs2. -/
  | bltu (a b : BitVec 5) (o : BitVec 13)
  /-- BGEU (R103). Branches when rs1 is unsigned greater or equal to rs2. -/
  | bgeu (a b : BitVec 5) (o : BitVec 13)
  /-- BFS (R104). Branches when FLAGS bit k is 1, resynchronising first. -/
  | bfs (k : BitVec 5) (o : BitVec 13)
  /-- BFC (R104). Branches when FLAGS bit k is 0, resynchronising first. -/
  | bfc (k : BitVec 5) (o : BitVec 13)
  /-- J (R105). Jumps by a 26-bit word offset. -/
  | j (o : BitVec 26)
  /-- JALR (R106). Jumps to rs1 + imm16 and writes the return address. -/
  | jalr (d a : BitVec 5) (i : BitVec 16)
  /-- LCOUNT (R116). Sets COUNT of level k and clears its CUR. -/
  | lcount (k a : BitVec 5)
  /-- LSTRIDE (R116). Sets STRIDE and stepped register of level k. -/
  | lstride (k a r : BitVec 5)
  /-- LD_B (R109). Loads a byte sign-extended. -/
  | ldB (d a : BitVec 5) (c : BitVec 4) (i : BitVec 12)
  /-- LD_BU (R109). Loads a byte zero-extended. -/
  | ldBu (d a : BitVec 5) (c : BitVec 4) (i : BitVec 12)
  /-- LD_H (R109). Loads a halfword sign-extended. -/
  | ldH (d a : BitVec 5) (c : BitVec 4) (i : BitVec 12)
  /-- LD_HU (R109). Loads a halfword zero-extended. -/
  | ldHu (d a : BitVec 5) (c : BitVec 4) (i : BitVec 12)
  /-- LD_W (R109). Loads a word sign-extended. -/
  | ldW (d a : BitVec 5) (c : BitVec 4) (i : BitVec 12)
  /-- LD_WU (R109). Loads a word zero-extended. -/
  | ldWu (d a : BitVec 5) (c : BitVec 4) (i : BitVec 12)
  /-- LD_D (R109). Loads a doubleword. -/
  | ldD (d a : BitVec 5) (c : BitVec 4) (i : BitVec 12)
  /-- ST_B (R109). Stores a byte. -/
  | stB (s a : BitVec 5) (c : BitVec 4) (i : BitVec 12)
  /-- ST_H (R109). Stores a halfword. -/
  | stH (s a : BitVec 5) (c : BitVec 4) (i : BitVec 12)
  /-- ST_W (R109). Stores a word. -/
  | stW (s a : BitVec 5) (c : BitVec 4) (i : BitVec 12)
  /-- ST_D (R109). Stores a doubleword. -/
  | stD (s a : BitVec 5) (c : BitVec 4) (i : BitVec 12)
  /-- STQ (R246). Stores four scalar registers as one 32-byte atomic access. -/
  | stq (n a : BitVec 5) (c : BitVec 4) (o : BitVec 11)
  /-- STQ_V (R246). Stores bits 255:0 of a vector register as one 32-byte atomic access. -/
  | stqV (n a : BitVec 5) (c : BitVec 4) (o : BitVec 11)
  /-- AMO_LD (R249). Atomic read at the owner. -/
  | amoLd (d a : BitVec 5) (q l : BitVec 1) (s : BitVec 3) (c : BitVec 4) (w : BitVec 2)
  /-- AMO_ST (R249). Atomic store at the owner. -/
  | amoSt (d a : BitVec 5) (q l : BitVec 1) (s : BitVec 3) (c : BitVec 4) (w : BitVec 2)
  /-- AMO_SWAP (R249). Atomic swap returning the old value. -/
  | amoSwap (d a : BitVec 5) (q l : BitVec 1) (s : BitVec 3) (c : BitVec 4) (w : BitVec 2)
  /-- AMO_CAS (R249). Atomic compare-and-swap returning the old value. -/
  | amoCas (d a : BitVec 5) (q l : BitVec 1) (s : BitVec 3) (c : BitVec 4) (w : BitVec 2)
  /-- AMO_ADD (R249). Atomic add returning the old value. -/
  | amoAdd (d a : BitVec 5) (q l : BitVec 1) (s : BitVec 3) (c : BitVec 4) (w : BitVec 2)
  /-- AMO_AND (R249). Atomic and returning the old value. -/
  | amoAnd (d a : BitVec 5) (q l : BitVec 1) (s : BitVec 3) (c : BitVec 4) (w : BitVec 2)
  /-- AMO_OR (R249). Atomic or returning the old value. -/
  | amoOr (d a : BitVec 5) (q l : BitVec 1) (s : BitVec 3) (c : BitVec 4) (w : BitVec 2)
  /-- AMO_XOR (R249). Atomic xor returning the old value. -/
  | amoXor (d a : BitVec 5) (q l : BitVec 1) (s : BitVec 3) (c : BitVec 4) (w : BitVec 2)
  /-- AMO_MIN (R249). Atomic signed minimum. -/
  | amoMin (d a : BitVec 5) (q l : BitVec 1) (s : BitVec 3) (c : BitVec 4) (w : BitVec 2)
  /-- AMO_MAX (R249). Atomic signed maximum. -/
  | amoMax (d a : BitVec 5) (q l : BitVec 1) (s : BitVec 3) (c : BitVec 4) (w : BitVec 2)
  /-- AMO_MINU (R249). Atomic unsigned minimum. -/
  | amoMinu (d a : BitVec 5) (q l : BitVec 1) (s : BitVec 3) (c : BitVec 4) (w : BitVec 2)
  /-- AMO_MAXU (R249). Atomic unsigned maximum. -/
  | amoMaxu (d a : BitVec 5) (q l : BitVec 1) (s : BitVec 3) (c : BitVec 4) (w : BitVec 2)
  /-- VAMO_LD (R251). Vector indexed atomic read per active element. -/
  | vamoLd (d a : BitVec 5) (q l : BitVec 1) (s : BitVec 3) (c : BitVec 4) (w : BitVec 2)
  /-- VAMO_ST (R251). Vector indexed atomic store per active element. -/
  | vamoSt (d a : BitVec 5) (q l : BitVec 1) (s : BitVec 3) (c : BitVec 4) (w : BitVec 2)
  /-- VAMO_SWAP (R251). Vector indexed atomic swap. -/
  | vamoSwap (d a : BitVec 5) (q l : BitVec 1) (s : BitVec 3) (c : BitVec 4) (w : BitVec 2)
  /-- VAMO_CAS (R251). Vector indexed atomic compare-and-swap. -/
  | vamoCas (d a : BitVec 5) (q l : BitVec 1) (s : BitVec 3) (c : BitVec 4) (w : BitVec 2)
  /-- VAMO_ADD (R251). Vector indexed atomic add. -/
  | vamoAdd (d a : BitVec 5) (q l : BitVec 1) (s : BitVec 3) (c : BitVec 4) (w : BitVec 2)
  /-- VAMO_AND (R251). Vector indexed atomic and. -/
  | vamoAnd (d a : BitVec 5) (q l : BitVec 1) (s : BitVec 3) (c : BitVec 4) (w : BitVec 2)
  /-- VAMO_OR (R251). Vector indexed atomic or. -/
  | vamoOr (d a : BitVec 5) (q l : BitVec 1) (s : BitVec 3) (c : BitVec 4) (w : BitVec 2)
  /-- VAMO_XOR (R251). Vector indexed atomic xor. -/
  | vamoXor (d a : BitVec 5) (q l : BitVec 1) (s : BitVec 3) (c : BitVec 4) (w : BitVec 2)
  /-- VAMO_MIN (R251). Vector indexed atomic signed minimum. -/
  | vamoMin (d a : BitVec 5) (q l : BitVec 1) (s : BitVec 3) (c : BitVec 4) (w : BitVec 2)
  /-- VAMO_MAX (R251). Vector indexed atomic signed maximum. -/
  | vamoMax (d a : BitVec 5) (q l : BitVec 1) (s : BitVec 3) (c : BitVec 4) (w : BitVec 2)
  /-- VAMO_MINU (R251). Vector indexed atomic unsigned minimum. -/
  | vamoMinu (d a : BitVec 5) (q l : BitVec 1) (s : BitVec 3) (c : BitVec 4) (w : BitVec 2)
  /-- VAMO_MAXU (R251). Vector indexed atomic unsigned maximum. -/
  | vamoMaxu (d a : BitVec 5) (q l : BitVec 1) (s : BitVec 3) (c : BitVec 4) (w : BitVec 2)
  /-- VCFG (R133). Sets VTYPE and VL from the requested width, grouping and length. -/
  | vcfg (d a : BitVec 5) (g : BitVec 2) (e : BitVec 3)
  /-- VTAG (R134). Retags a vector register without changing data. -/
  | vtag (d t : BitVec 5)
  /-- VGETX (R135). Moves a vector element to a scalar register with resynchronisation. -/
  | vgetx (d a b : BitVec 5)
  /-- VSETX (R135). Writes a scalar into one vector element. -/
  | vsetx (d a b : BitVec 5)
  /-- VBCAST (R135). Broadcasts a scalar to every active element. -/
  | vbcast (d a m : BitVec 5)
  /-- VID (R135). Writes each active element's index. -/
  | vid (d m : BitVec 5)
  /-- VADD (R138). Element-wise addition by tag. -/
  | vadd (d a b m : BitVec 5) (r : BitVec 3)
  /-- VSUB (R138). Element-wise subtraction by tag. -/
  | vsub (d a b m : BitVec 5) (r : BitVec 3)
  /-- VMUL (R138). Element-wise multiplication by tag. -/
  | vmul (d a b m : BitVec 5) (r : BitVec 3)
  /-- VMAC (R140). Element-wise multiply-accumulate, same width or widening. -/
  | vmac (d a b m : BitVec 5) (r : BitVec 3)
  /-- VMIN (R138). Element-wise minimum by tag. -/
  | vmin (d a b m : BitVec 5) (r : BitVec 3)
  /-- VMAX (R138). Element-wise maximum by tag. -/
  | vmax (d a b m : BitVec 5) (r : BitVec 3)
  /-- VDIV (R138). Element-wise division by tag. -/
  | vdiv (d a b m : BitVec 5) (r : BitVec 3)
  /-- VSQRT (R138). Element-wise square root. -/
  | vsqrt (d a m : BitVec 5) (r : BitVec 2)
  /-- VABS (R138). Element-wise absolute value. -/
  | vabs (d a m : BitVec 5) (r : BitVec 2)
  /-- VNEG (R138). Element-wise negation. -/
  | vneg (d a m : BitVec 5) (r : BitVec 2)
  /-- VNOT (R139). Element-wise bitwise not. -/
  | vnot (d a m : BitVec 5) (r : BitVec 2)
  /-- VCLZ (R139). Element-wise leading-zero count. -/
  | vclz (d a m : BitVec 5) (r : BitVec 2)
  /-- VPOPC (R139). Element-wise population count. -/
  | vpopc (d a m : BitVec 5) (r : BitVec 2)
  /-- VBILV2 (R139). Element-wise bit interleave of two halves. -/
  | vbilv2 (d a m : BitVec 5) (r : BitVec 2)
  /-- VBEXT2 (R139). Element-wise bit de-interleave. -/
  | vbext2 (d a m : BitVec 5) (r : BitVec 2)
  /-- VMOV (R138). Copies elements with their tag. -/
  | vmov (d a m : BitVec 5) (r : BitVec 2)
  /-- VCEQ (R141). Vector equality compare writing a mask and FLAGS. -/
  | vceq (d a b m : BitVec 5) (r : BitVec 3)
  /-- VCNE (R141). Vector inequality compare. -/
  | vcne (d a b m : BitVec 5) (r : BitVec 3)
  /-- VCLT (R141). Vector less-than compare. -/
  | vclt (d a b m : BitVec 5) (r : BitVec 3)
  /-- VCLE (R141). Vector less-or-equal compare. -/
  | vcle (d a b m : BitVec 5) (r : BitVec 3)
  /-- VCUN (R141). Vector unordered compare. -/
  | vcun (d a b m : BitVec 5) (r : BitVec 3)
  /-- VCTST (R141). Vector bit-test compare. -/
  | vctst (d a b m : BitVec 5) (r : BitVec 3)
  /-- VCVT (R144). Converts each active element to the target tag, optionally saturating. -/
  | vcvt (d a t m : BitVec 5) (s : BitVec 1) (r : BitVec 3)
  /-- VAND (R145). Element-wise bitwise and. -/
  | vand (d a b m : BitVec 5) (r : BitVec 3)
  /-- VOR (R145). Element-wise bitwise or. -/
  | vor (d a b m : BitVec 5) (r : BitVec 3)
  /-- VXOR (R145). Element-wise bitwise xor. -/
  | vxor (d a b m : BitVec 5) (r : BitVec 3)
  /-- VSHL (R145). Element-wise shift left. -/
  | vshl (d a b m : BitVec 5) (r : BitVec 3)
  /-- VSHR (R145). Element-wise shift right, logical or arithmetic by tag. -/
  | vshr (d a b m : BitVec 5) (r : BitVec 3)
  /-- VPERM (R146). Permutes or looks up elements by index. -/
  | vperm (d a b m : BitVec 5)
  /-- VSLIDE (R146). Slides elements by a scalar offset. -/
  | vslide (d a k m : BitVec 5)
  /-- VREDSUM (R147). Exact sum reduction rounded once into element 0. -/
  | vredsum (d a m : BitVec 5)
  /-- VREDMIN (R147). Minimum reduction. -/
  | vredmin (d a m : BitVec 5)
  /-- VREDMAX (R147). Maximum reduction. -/
  | vredmax (d a m : BitVec 5)
  /-- VREDAND (R147). Bitwise and reduction. -/
  | vredand (d a m : BitVec 5)
  /-- VREDOR (R147). Bitwise or reduction. -/
  | vredor (d a m : BitVec 5)
  /-- VREDXOR (R147). Bitwise xor reduction. -/
  | vredxor (d a m : BitVec 5)
  /-- VMATCH (R148). Groups equal elements by leader index and sets FLAGS. -/
  | vmatch (d a m : BitVec 5)
  /-- VEXPAND (R149). Expands packed elements under the mask. -/
  | vexpand (d a m : BitVec 5)
  /-- VCOMPRESS (R149). Compresses active elements to the front. -/
  | vcompress (d a m : BitVec 5)
  /-- VUNPACK (R150). Unpacks narrow bit fields into wider elements. -/
  | vunpack (d a m : BitVec 5)
  /-- VREV (R149). Reverses the body elements. -/
  | vrev (d a m : BitVec 5)
  /-- VLD (R152). Unit-stride vector load. -/
  | vld (d a m : BitVec 5) (c : BitVec 4)
  /-- VLDS (R152). Strided vector load. -/
  | vlds (d a b m : BitVec 5) (c : BitVec 4)
  /-- VLDX (R152). Indexed vector load. -/
  | vldx (d a b m : BitVec 5) (c : BitVec 4)
  /-- VLDL (R155). Lane-slice vector load. -/
  | vldl (d a b m : BitVec 5) (c : BitVec 4)
  /-- VST (R152). Unit-stride vector store. -/
  | vst (d a m : BitVec 5) (c : BitVec 4)
  /-- VSTS (R152). Strided vector store. -/
  | vsts (d a b m : BitVec 5) (c : BitVec 4)
  /-- VSTX (R152). Indexed vector store. -/
  | vstx (d a b m : BitVec 5) (c : BitVec 4)
  /-- VSTL (R155). Lane-slice vector store. -/
  | vstl (d a b m : BitVec 5) (c : BitVec 4)
  /-- EMIT (R192). Enqueues a record image to a queue at depth + 1. -/
  | emit (k a q : BitVec 5)
  /-- LAUNCH (R196). Places a grid of team records across dies. -/
  | launch (n a i : BitVec 5)
  /-- SUSPEND (R192). Enqueues a successor record and leaves the slot. -/
  | suspend (k a q : BitVec 5)
  /-- YIELD (R195). Builds a successor at PC + 4 into its own queue and leaves the slot. -/
  | yield (k : BitVec 5)
  /-- PENQ (R432). Sends a record to a queue of a peer module and waits for the reply. -/
  | penq (d a t : BitVec 5)
  /-- WAITA (R199). Arms a monitor and parks until a memory word compares true. -/
  | waita (d a b : BitVec 5) (w : BitVec 1) (k : BitVec 3)
  /-- VWAIT (R200). Parks until every active element's word compares true in one pass. -/
  | vwait (m a b : BitVec 5) (w : BitVec 1) (k : BitVec 3)
  /-- BAR_ARRIVE (R201). Arrives at a team barrier and returns the phase token. -/
  | barArrive (d b : BitVec 5)
  /-- BAR_WAIT (R201). Waits for the phase of a token to complete. -/
  | barWait (a b : BitVec 5)
  /-- BAR_SYNC (R201). Arrives and waits for the phase of that arrival. -/
  | barSync (b : BitVec 5)
  /-- LKSTALL (R204). Reads the stall counter of a link. -/
  | lkstall (d k : BitVec 5)
  /-- LKSTALLC (R204). Reads and clears the stall counter of a link. -/
  | lkstallc (d k : BitVec 5)
  /-- LKCOUNT (R204). Reads input words and neighbour free entries of a link. -/
  | lkcount (d k : BitVec 5)
  /-- FENCE (R254). Orders before-mask classes before after-mask classes at a scope. -/
  | fence (a : BitVec 5) (s : BitVec 3)
  /-- FENCE_ALL (R254). Orders every class before every class at a scope. -/
  | fenceAll (s : BitVec 3)
  /-- CELL_PROPOSE (R425). Proposes a value for a generation of a decide-once cell. -/
  | cellPropose (d a v : BitVec 5)
  /-- CELL_READ (R425). Reads a decide-once cell for a generation. -/
  | cellRead (d a : BitVec 5)
  /-- CELL_RECYCLE (R427). Advances a decided cell to the next generation in state recycling. -/
  | cellRecycle (d a : BitVec 5)
  /-- SHAPE_SEAL (R258). Validates a shape record and enters it in the cluster table. -/
  | shapeSeal (d a : BitVec 5)
  /-- SHAPE_FENCE (R259). Rereads and revalidates a sealed record, replacing the entry. -/
  | shapeFence (d a : BitVec 5)
  /-- SHAPE_DROP (R260). Advances the entry's sequence number and frees it when commands finish. -/
  | shapeDrop (d a : BitVec 5)
  /-- CRANGE (R255). Declares a commutative range from a descriptor. -/
  | crange (d a : BitVec 5)
  /-- CRANGE_DROP (R255). Drops a declared range after a final read. -/
  | crangeDrop (d a : BitVec 5)
  /-- VRRED (R430). Sends a remote-reduce packet of scaled contributions. -/
  | vrred (v a k m : BitVec 5)
  /-- ST_BITS (R261). Stores a bit field of 1 to 64 bits at any bit address. -/
  | stBits (d a f : BitVec 5)
  /-- MQ_COPY (R344). Issues a memory-core copy command running the ROM or a user program. -/
  | mqCopy (a b : BitVec 5)
  /-- SB_ARM (R349). Arms a stage barrier with an announced count. -/
  | sbArm (n : BitVec 5) (b : BitVec 4)
  /-- SB_WAIT (R349). Waits for a stage barrier to reach DONE. -/
  | sbWait (b : BitVec 4)
  /-- SB_RESET (R349). Resets a stage barrier to IDLE. -/
  | sbReset (b : BitVec 4)
  /-- SB_STATE (R349). Reads a stage barrier's state. -/
  | sbState (d : BitVec 5) (b : BitVec 4)
  /-- SB_COUNT (R349). Reads a stage barrier's EXPECT and GOT. -/
  | sbCount (d : BitVec 5) (b : BitVec 4)
  /-- SL_LOAD (R352). Issues a stream load of a sealed shape into a vector group. -/
  | slLoad (i v : BitVec 5)
  /-- PE_CLEAR (R292). Issues a clear of an accumulator tile. -/
  | peClear (t : BitVec 2) (q : BitVec 4)
  /-- PE_LOAD (R293). Issues a load of C into an accumulator tile. -/
  | peLoad (t : BitVec 2) (q : BitVec 4)
  /-- PE_MMA (R294). Issues a plane-engine matrix multiply-accumulate. -/
  | peMma (t : BitVec 2) (q : BitVec 4)
  /-- PE_STORE (R295). Issues a store of a tile, rounded once. -/
  | peStore (t : BitVec 2) (q : BitVec 4)
  /-- CE_RUN (R307). Issues a chain-engine pattern run. -/
  | ceRun (q : BitVec 4)
  /-- GX_COMMIT (R356). Submits a shading task's colours to the commit unit. -/
  | gxCommit (a b v : BitVec 5)
  /-- EREG_W (R341). Writes a scalar to an engine register. -/
  | eregW (e : BitVec 3) (i : BitVec 7) (a : BitVec 5)
  /-- EREG_R (R341). Reads an engine register into a scalar. -/
  | eregR (e : BitVec 3) (i : BitVec 7) (d : BitVec 5)
  /-- TEX_SMP (R360). Samples a texture at a given level of detail. -/
  | texSmp (d a t m : BitVec 5)
  /-- TEX_GRAD (R360). Samples a texture from gradients. -/
  | texGrad (d a t m : BitVec 5)
  /-- TEX_FETCH (R360). Fetches one texel at integer coordinates. -/
  | texFetch (d a t m : BitVec 5)
  /-- RBOX (R361). Tests rays against the child boxes of a node. -/
  | rbox (d a b m : BitVec 5)
  /-- RTRI (R361). Tests rays against triangles. -/
  | rtri (d a b m : BitVec 5)
  /-- VMM (R299). Multiplies an 8x8x32 MX block on the plane-engine datapath into f32. -/
  | vmm (d a b : BitVec 5) (k : BitVec 3)
  /-- CRR (R112). Reads a control register. -/
  | crr (d : BitVec 5) (n : BitVec 12)
  /-- CRW (R112). Writes a control register, returning the old value. -/
  | crw (d a : BitVec 5) (n : BitVec 12)
  /-- CRS (R112). Sets bits of a control register, returning the old value. -/
  | crs (d a : BitVec 5) (n : BitVec 12)
  /-- CRC (R112). Clears bits of a control register, returning the old value. -/
  | crc (d a : BitVec 5) (n : BitVec 12)
  /-- PFX (R86). A firmware-mode modifier prefix issues once with the following word. -/
  | pfx (sat clamp nega negb absa absb : Bool) (scale : BitVec 7)
  /-- MC_ADD (R346). Memory-core addition. -/
  | mcAdd (a b c : BitVec 4)
  /-- MC_SUB (R346). Memory-core subtraction. -/
  | mcSub (a b c : BitVec 4)
  /-- MC_AND (R346). Memory-core bitwise and. -/
  | mcAnd (a b c : BitVec 4)
  /-- MC_OR (R346). Memory-core bitwise or. -/
  | mcOr (a b c : BitVec 4)
  /-- MC_XOR (R346). Memory-core bitwise xor. -/
  | mcXor (a b c : BitVec 4)
  /-- MC_SHL (R346). Memory-core shift left by register. -/
  | mcShl (a b c : BitVec 4)
  /-- MC_SHR (R346). Memory-core logical shift right by register. -/
  | mcShr (a b c : BitVec 4)
  /-- MC_MUL (R346). Memory-core multiplication, low 64 bits. -/
  | mcMul (a b c : BitVec 4)
  /-- MC_ADDI (R346). Memory-core add of a sign-extended immediate. -/
  | mcAddi (a b : BitVec 4) (i : BitVec 14)
  /-- MC_SHLI (R346). Memory-core shift left by an immediate. -/
  | mcShli (a b : BitVec 4) (s : BitVec 6)
  /-- MC_B (R346). Memory-core conditional branch. -/
  | mcB (k b c : BitVec 4) (i : BitVec 14)
  /-- MC_RD (R346). Reads memory into the stream buffer. -/
  | mcRd (a b c : BitVec 4)
  /-- MC_WR (R346). Writes the stream buffer to memory, counting at a stage barrier. -/
  | mcWr (a b c : BitVec 4)
  /-- MC_LDB (R346). Loads 8 buffer bytes into a register. -/
  | mcLdb (a b : BitVec 4) (i : BitVec 14)
  /-- MC_STB (R346). Stores a register into 8 buffer bytes. -/
  | mcStb (a b : BitVec 4) (i : BitVec 14)
  /-- MC_ELEM (R346). Computes the bit address of a shape element from the cluster table. -/
  | mcElem (a b c : BitVec 4)
  /-- LOOP (R117). Captures the body and replays it under the nested-loop sequencer. -/
  | loop
  /-- DONE (R197). Retires the task without a successor. -/
  | done
  /-- PENQ_REPLY (R432). The reply to a penq arrives and is written to rd. -/
  | penqReply
  /-- PENQ_TIMEOUT (R432). No reply within 2^24 cycles completes the penq with code 5. -/
  | penqTimeout
  /-- WAIT_WAKE (R188). A write to a monitored line wakes a parked wait, which rereads and completes or parks again. -/
  | waitWake
  /-- BAR_WAIT_RESUME (R202). A member parked on a barrier phase issues again after the phase completes. -/
  | barWaitResume
  /-- LINK_PARKED_ISSUE (R185). A slot parked on a link issues once its words are present and its pushes have room. -/
  | linkParkedIssue
  /-- CELL_RECYCLE_RELEASE_DONE (R427). When the recycler's release completes, the home sets the cell empty. -/
  | cellRecycleReleaseDone
  /-- SB_WAIT_RESUME (R284). A parked stage-barrier waiter completes on DONE or traps on OVERSHOOT. -/
  | sbWaitResume
  /-- SL_LOAD_ROW (R352). The stream-load unit delivers one output row as a step. -/
  | slLoadRow
  /-- PE_MMA_STEP (R294). One K block of a pe.mma is accumulated indivisibly into the tile. -/
  | peMmaStep
  /-- PE_TILE_STEP (R292). The single step of a pe.clear, pe.load or pe.store runs on its tile. -/
  | peTileStep
  /-- CHAIN_STEP (R307). One pattern step is checked, computed into the other half and committed. -/
  | chainStep
  /-- GX_STATE (R315). Reads and makes current a pipeline state block. -/
  | gxState
  /-- GX_PRIM (R316). Submits primitive records to the binner. -/
  | gxPrim
  /-- BINNER_RECORD (R316). One primitive record is performed at the binner: dropped, listed or wide-listed. -/
  | binnerRecord
  /-- GX_FLUSH (R321). Closes the open batch. -/
  | gxFlush
  /-- GX_END (R355). Closes the open batch and completes when earlier batches have fully drained. -/
  | gxEnd
  /-- TILE_REPLAY (R322). A closed batch delivers a tile's primitives to its cluster's resolver. -/
  | tileReplay
  /-- RESOLVER_TILE_START (R323). The resolver takes a tile slot, loads depth and resolves opaque primitives. -/
  | resolverTileStart
  /-- VISIBILITY_FINAL (R324). A tile's visibility becomes final and opaque shading tasks are emitted. -/
  | visibilityFinal
  /-- TRANSLUCENT_TASK_EMIT (R325). The binner reserves a commit entry and emits a translucent task with its ticket. -/
  | translucentTaskEmit
  /-- COMMIT_PERFORM (R328). A waiting commit is performed in ticket order, writing or blending pixels. -/
  | commitPerform
  /-- TILE_SLOT_RELEASE (R324). The tile slot is released after all commits, writing depth back if enabled. -/
  | tileSlotRelease
  /-- BV_BUILD (R357). Issues a hierarchy build. -/
  | bvBuild
  /-- BUILD_ITEM (R338). The build engine processes one item of its current phase. -/
  | buildItem
  /-- ENGINE_COMMAND_COMPLETE (R274). A command finishes, writes its completion word with release and counts DONE. -/
  | engineCommandComplete
  /-- ENGINE_FAULT (R382). A command faults at a step boundary, is stopped and makes a trap due. -/
  | engineFault
  /-- MQ_COPY_PIECE (R282). A memory core performs one piece of a copy and counts it at a stage barrier. -/
  | mqCopyPiece
  /-- MC_INVOCATION (R345). A memory core starts one invocation of a user program. -/
  | mcInvocation
  /-- SYS (R393). Traps SYS after earlier instructions complete. -/
  | sys
  /-- BRK (R393). Traps BRK after earlier instructions complete. -/
  | brk
  /-- TRET (R378). Returns from a local trap handler. -/
  | tret
  /-- VLMAXP_WRITE (R17). Changing the active lanes waits for empty vector queues, gates lanes and clamps VL. -/
  | vlmaxpWrite
  /-- FRES_RETRY (R381). Resumes a FAULTED slot at its resume point. -/
  | fresRetry
  /-- FRES_REISSUE (R381). Reissues the slot's stopped commands, then resumes it. -/
  | fresReissue
  /-- FRES_KILL (R381). Aborts the faulted task or its team. -/
  | fresKill
  /-- FRES_EXTEND (R381). Clears TASKCYC and resumes the faulted slot. -/
  | fresExtend
  /-- RCTL_RESUME (R388). Makes a region tree's queues dispatch candidates again. -/
  | rctlResume
  /-- RCTL_SUSPEND (R388). Stops dispatch from a region tree's queues. -/
  | rctlSuspend
  /-- RCTL_KILL (R389). Kills a region tree. -/
  | rctlKill
  /-- QSAVE (R390). Writes a queue's pinned entries to its memory image in dispatch order. -/
  | qsave
  /-- TLBINV_PAGE (R387). Removes cached translations of one page. -/
  | tlbinvPage
  /-- TLBINV_ALL (R387). Removes every cached translation of the module. -/
  | tlbinvAll
  /-- MC_END (R346). Ends the invocation. -/
  | mcEnd
  /-- DISPATCH_GRANT (R180). The dispatcher answers a free-slot request by weighted round-robin and grants an entry. -/
  | dispatchGrant
  /-- PICK_UP (R158). A granted slot resets its state from the record and issues its first instruction. -/
  | pickUp
  /-- SLOT_RETIREMENT (R159). A RETIRING slot becomes FREE or HELD once its successor is enqueued and stores performed. -/
  | slotRetirement
  /-- QUEUE_ROOM_RESUME (R176). A thread parked on a full queue completes its enqueue when an entry leaves. -/
  | queueRoomResume
  /-- TASK_LIMIT (R172). TASKCYC reaching LIMIT traps the slot. -/
  | taskLimit
  /-- STAGE_GOVERNOR_EVALUATION (R179). Every 1024 cycles the governor moves quota from a donor to a recipient stage. -/
  | stageGovernorEvaluation
  /-- BALANCER_CYCLE (R183). Every 4096 cycles the central balancer samples, decides and issues migrations. -/
  | balancerCycle
  /-- MIGRATION_COMMAND (R184). A source die detaches entries and enqueues them at the destination die. -/
  | migrationCommand
  /-- WINDOW_ENQUEUE (R177). A 64-byte write to an enqueue window enqueues a record or is refused. -/
  | windowEnqueue
  /-- CLKTS_TICK (R223). After 64 cycles without change the core's logical time advances by 1. -/
  | clktsTick
  /-- LOCAL_TRAP_ENTRY (R376). A trap is taken locally: trap state is written and PC goes to TVEC. -/
  | localTrapEntry
  /-- FAULT_DOMAIN_DELIVERY (R379). The slot becomes FAULTED and a fault record is enqueued at its fault domain. -/
  | faultDomainDelivery
  /-- FAULT_RECORD_ENQUEUE (R380). A fault record waiting on a full FDOM is enqueued, or passed up the tree. -/
  | faultRecordEnqueue
  /-- PAGE_WALK (R383). A die walker translates a TLB miss through five levels. -/
  | pageWalk
  /-- SLICE_EVICTION (R220). A shared-cache slice evicts an unpinned line. -/
  | sliceEviction
  /-- LINE_FILL (R281). A memory core reads a missed line for its home slice. -/
  | lineFill
  /-- LINE_WRITEBACK (R281). A memory core writes back an evicted written line. -/
  | lineWriteback
  /-- HOME_READ (R403). A home serves a read from another die, recalling an owner and adding a sharer. -/
  | homeRead
  /-- HOME_UPGRADE (R403). A home grants M to a writing die after invalidating sharers and recalling the owner. -/
  | homeUpgrade
  /-- SLICE_INVALIDATION (R403). A die drops its slice copy on an invalidation and acknowledges. -/
  | sliceInvalidation
  /-- DT_RISE_REPORT (R404). A die reports a rise of its DT and the hub raises MT. -/
  | dtRiseReport
  /-- SEAM_FLIT_REPLAY (R399). A flit failing CRC is replayed from the sender's buffer. -/
  | seamFlitReplay
  /-- SEAM_LOSS (R421). A lost seam stops its die, poisons its memory, unbinds its queues and sends fault records. -/
  | seamLoss
  /-- SNPINV (R410). A host invalidating snoop drops the line at its proxy home. -/
  | snpinv
  /-- SNPDATA (R410). A host data snoop recalls any M copy and returns data, keeping S. -/
  | snpdata
  /-- SNPCUR (R410). A host current snoop returns data without changing state. -/
  | snpcur
  /-- MEMRD (R411). A host CXL.mem read of device memory, setting H. -/
  | memrd
  /-- MEMWR (R411). A host CXL.mem write performed at the home as a store. -/
  | memwr
  /-- MEMINV (R408). A host CXL.mem invalidation request. -/
  | meminv
  /-- BISNP_RESPONSE (R411). The host's answer to a back-invalidation lets the held device access or host request proceed. -/
  | bisnpResponse
  /-- PEER_ACCESS_PACKET (R413). A peer access packet is performed at the line's home on this module. -/
  | peerAccessPacket
  /-- REMOTE_REDUCE_PACKET (R414). A memory core applies a remote-reduce packet's contributions or discards it. -/
  | remoteReducePacket
  /-- DIE_IDLE (R449). A die with no activity for 2^20 cycles gates its clocks. -/
  | dieIdle
  /-- DIE_WAKE (R449). An idle die returns to ACTIVE 4800 cycles after an event that needs it. -/
  | dieWake
  /-- CLOCK_LEVEL_STEP (R450). The management core steps a die's clock level at a 1024-cycle boundary. -/
  | clockLevelStep
  /-- MODULE_RESET (R438). Reset runs bring-up phases to READY or FAILED. -/
  | moduleReset
  /-- BOOT (R439). Trains peer ports, checks and starts the firmware, entering BOOTED. -/
  | boot
  /-- IMAGE_LOAD (R442). Copies an image, creates regions, binds queues and loads memory-core programs. -/
  | imageLoad
  /-- REGION_CREATE (R441). Creates a region from an RCB and returns its handle. -/
  | regionCreate
  /-- REGION_KILL (R389). Kills a region tree by handle. -/
  | regionKill
  /-- QUEUE_BIND (R443). Binds or unbinds a queue and restores saved entries. -/
  | queueBind
  /-- CHECKPOINT (R444). Streams compressed device memory to the safe tier. -/
  | checkpoint
  /-- RESTORE (R445). Rewrites device memory from a safe-tier slot and drops cached state. -/
  | restore
  /-- ATTEST (R448). Writes a signed attestation report. -/
  | attest
  /-- TELEMETRY (R451). Writes power data and fault reports to a buffer. -/
  | telemetry
  /-- ENGINE_RESET (R391). Stops all commands of the named engines on the named dies. -/
  | engineReset
  /-- SHUTDOWN (R441). Kills every region, writes back caches and enters OFF. -/
  | shutdown
  /-- NARG_WRITE (R440). A host write to a command-window register without behaviour of its own. -/
  | nargWrite
  /-- NCMD_WRITE_WHILE_BUSY (R440). A host write of NCMD while BUSY is 1 is discarded and adds 1 to NREF. -/
  | ncmdWriteWhileBusy
  /-- UNKNOWN_COMMAND_CODE (R441). An NCMD write whose CODE names no command completes with result 1. -/
  | unknownCommandCode
  /-- PROXY_HOME_LINE_FILL (R410). The host returns a line requested by RdShared or RdOwn, and the proxy home installs it and serves the waiting access. -/
  | proxyHomeLineFill
  /-- ACKNOWLEDGEMENT_RETURN (R413). The acknowledgement of a peer store or remote-reduce packet returns to the issuer, counting the store as performed or adding 1 to DROPS on a refusal. -/
  | acknowledgementReturn
  /-- PACKET_FORWARDING (R412). The hub forwards a peer packet that is not addressed to its own module on the port its routing table names. -/
  | packetForwarding
  /-- POWER_REFRESH (R451). Every 2^16 cycles the POWER field of the die's PWR register is refreshed. -/
  | powerRefresh
deriving DecidableEq, Repr

end Sys2Proof
end

