-- ==== Sys2Proof/WellFormed.lean ====
section
/-! DEFINITION. Which instructions have a word: the limits on fields that a form's allocation states whatever the
state of the slot (R66, check 2). -/

namespace Sys2Proof

/-- The engine register indices that each engine implements (R342). -/
def engineIndexOk (e i : Nat) : Bool :=
  match e with
  | 0 => i ≤ 3 || (8 ≤ i && i ≤ 12)
  | 1 => i ≤ 1
  | 2 => i ≤ 5
  | 3 => i ≤ 11 || (16 ≤ i && i ≤ 22)
  | 4 => i ≤ 17 || (32 ≤ i && i ≤ 63)
  | 5 => i ≤ 9
  | 6 => i ≤ 11
  | _ => false

/-- The control-register numbers of R12 and of the later chapters' tables (R170, R208, R375, R380, R451). -/
def crListed (n : Nat) : Bool :=
  n ≤ 5 || (0x10 ≤ n && n ≤ 0x1F) || (0x20 ≤ n && n ≤ 0x23) || (0x30 ≤ n && n ≤ 0x37) || (0x40 ≤ n && n ≤ 0x44)
    || (0x50 ≤ n && n ≤ 0x55) || (0x58 ≤ n && n ≤ 0x5D) || (0x60 ≤ n && n ≤ 0x62) || (0x70 ≤ n && n ≤ 0x73) || n = 0x80

/-- The limits on an instruction's fields (R66, R69, R71 to R75, R77, R79, R82, R84, R201, R342, R362, R424, R429).
The operations and events that have no word have no such limit. -/
def Instr.wf : Instr → Bool
  | .addi _ _ _ => true
  | .andi _ _ _ => true
  | .ori _ _ _ => true
  | .xori _ _ _ => true
  | .clti _ _ _ => true
  | .cltiu _ _ _ => true
  | .slli _ _ _ => true
  | .srli _ _ _ => true
  | .srai _ _ _ => true
  | .rori _ _ _ => true
  | .add _ _ _ => true
  | .sub _ _ _ => true
  | .and _ _ _ => true
  | .or _ _ _ => true
  | .xor _ _ _ => true
  | .andn _ _ _ => true
  | .sll _ _ _ => true
  | .srl _ _ _ => true
  | .sra _ _ _ => true
  | .ror _ _ _ => true
  | .min _ _ _ => true
  | .minu _ _ _ => true
  | .max _ _ _ => true
  | .maxu _ _ _ => true
  | .mul _ _ _ => true
  | .mulh _ _ _ => true
  | .mulhu _ _ _ => true
  | .mulhsu _ _ _ => true
  | .div _ _ _ => true
  | .divu _ _ _ => true
  | .rem _ _ _ => true
  | .remu _ _ _ => true
  | .clz _ _ => true
  | .ctz _ _ => true
  | .popc _ _ => true
  | .bswap _ _ => true
  | .bilv2 _ _ _ => true
  | .bilv3 _ _ _ => true
  | .bext2 _ _ _ => true
  | .bext3 _ _ _ => true
  | .ceq _ _ _ => true
  | .cne _ _ _ => true
  | .clt _ _ _ => true
  | .cge _ _ _ => true
  | .cltu _ _ _ => true
  | .cgeu _ _ _ => true
  | .fadd _ _ _ _ r => decide (r ≠ 6)
  | .fsub _ _ _ _ r => decide (r ≠ 6)
  | .fmul _ _ _ _ r => decide (r ≠ 6)
  | .fdiv _ _ _ _ r => decide (r ≠ 6)
  | .fsqrt _ _ _ r => decide (r ≠ 6)
  | .fmin _ _ _ _ => true
  | .fmax _ _ _ _ => true
  | .fmac _ _ _ _ r => decide (r ≠ 6)
  | .fnmac _ _ _ _ r => decide (r ≠ 6)
  | .fceq _ _ _ _ => true
  | .fclt _ _ _ _ => true
  | .fcle _ _ _ _ => true
  | .fcvtf _ _ t _ r => decide (r ≠ 6 ∧ t.toNat ≤ 21)
  | .fcvtt _ _ t _ r => decide (r ≠ 6 ∧ t.toNat ≤ 21)
  | .fclass _ _ _ => true
  | .li _ _ => true
  | .lis _ _ => true
  | .pcseg _ _ => true
  | .ins16 _ _ _ => true
  | .beq _ _ _ => true
  | .bne _ _ _ => true
  | .blt _ _ _ => true
  | .bge _ _ _ => true
  | .bltu _ _ _ => true
  | .bgeu _ _ _ => true
  | .bfs k _ => decide (k.toNat ≤ 2)
  | .bfc k _ => decide (k.toNat ≤ 2)
  | .j _ => true
  | .jalr _ _ _ => true
  | .lcount k _ => decide (k.toNat ≤ 5)
  | .lstride k _ _ => decide (k.toNat ≤ 5)
  | .ldB _ _ _ _ => true
  | .ldBu _ _ _ _ => true
  | .ldH _ _ _ _ => true
  | .ldHu _ _ _ _ => true
  | .ldW _ _ _ _ => true
  | .ldWu _ _ _ _ => true
  | .ldD _ _ _ _ => true
  | .stB _ _ _ _ => true
  | .stH _ _ _ _ => true
  | .stW _ _ _ _ => true
  | .stD _ _ _ _ => true
  | .stq n _ _ _ => decide (n.toNat % 4 = 0)
  | .stqV _ _ _ _ => true
  | .amoLd d _ _ _ s _ w => decide (s ≠ 7 ∧ w ≠ 3 ∧ (w = 2 → d.toNat % 2 = 0))
  | .amoSt d _ _ _ s _ w => decide (s ≠ 7 ∧ w ≠ 3 ∧ (w = 2 → d.toNat % 2 = 0))
  | .amoSwap d _ _ _ s _ w => decide (s ≠ 7 ∧ w ≠ 3 ∧ (w = 2 → d.toNat % 2 = 0))
  | .amoCas d _ _ _ s _ w => decide (s ≠ 7 ∧ w ≠ 3 ∧ d.toNat % 2 = 0 ∧ (w = 2 → d.toNat % 4 = 0))
  | .amoAdd _ _ _ _ s _ w => decide (s ≠ 7 ∧ w.toNat ≤ 1)
  | .amoAnd _ _ _ _ s _ w => decide (s ≠ 7 ∧ w.toNat ≤ 1)
  | .amoOr _ _ _ _ s _ w => decide (s ≠ 7 ∧ w.toNat ≤ 1)
  | .amoXor _ _ _ _ s _ w => decide (s ≠ 7 ∧ w.toNat ≤ 1)
  | .amoMin _ _ _ _ s _ w => decide (s ≠ 7 ∧ w.toNat ≤ 1)
  | .amoMax _ _ _ _ s _ w => decide (s ≠ 7 ∧ w.toNat ≤ 1)
  | .amoMinu _ _ _ _ s _ w => decide (s ≠ 7 ∧ w.toNat ≤ 1)
  | .amoMaxu _ _ _ _ s _ w => decide (s ≠ 7 ∧ w.toNat ≤ 1)
  | .vamoLd _ _ _ _ s _ w => decide (s ≠ 7 ∧ w.toNat ≤ 1)
  | .vamoSt _ _ _ _ s _ w => decide (s ≠ 7 ∧ w.toNat ≤ 1)
  | .vamoSwap _ _ _ _ s _ w => decide (s ≠ 7 ∧ w.toNat ≤ 1)
  | .vamoCas _ _ _ _ s _ w => decide (s ≠ 7 ∧ w.toNat ≤ 1)
  | .vamoAdd _ _ _ _ s _ w => decide (s ≠ 7 ∧ w.toNat ≤ 1)
  | .vamoAnd _ _ _ _ s _ w => decide (s ≠ 7 ∧ w.toNat ≤ 1)
  | .vamoOr _ _ _ _ s _ w => decide (s ≠ 7 ∧ w.toNat ≤ 1)
  | .vamoXor _ _ _ _ s _ w => decide (s ≠ 7 ∧ w.toNat ≤ 1)
  | .vamoMin _ _ _ _ s _ w => decide (s ≠ 7 ∧ w.toNat ≤ 1)
  | .vamoMax _ _ _ _ s _ w => decide (s ≠ 7 ∧ w.toNat ≤ 1)
  | .vamoMinu _ _ _ _ s _ w => decide (s ≠ 7 ∧ w.toNat ≤ 1)
  | .vamoMaxu _ _ _ _ s _ w => decide (s ≠ 7 ∧ w.toNat ≤ 1)
  | .vcfg _ _ _ _ => true
  | .vtag _ t => decide (t.toNat ≤ 27)
  | .vgetx _ _ _ => true
  | .vsetx _ _ _ => true
  | .vbcast _ _ _ => true
  | .vid _ _ => true
  | .vadd _ _ _ _ _ => true
  | .vsub _ _ _ _ _ => true
  | .vmul _ _ _ _ _ => true
  | .vmac _ _ _ _ _ => true
  | .vmin _ _ _ _ _ => true
  | .vmax _ _ _ _ _ => true
  | .vdiv _ _ _ _ _ => true
  | .vsqrt _ _ _ _ => true
  | .vabs _ _ _ _ => true
  | .vneg _ _ _ _ => true
  | .vnot _ _ _ _ => true
  | .vclz _ _ _ _ => true
  | .vpopc _ _ _ _ => true
  | .vbilv2 _ _ _ _ => true
  | .vbext2 _ _ _ _ => true
  | .vmov _ _ _ _ => true
  | .vceq _ _ _ _ r => decide (4 ≤ r.toNat ∨ r = 0)
  | .vcne _ _ _ _ r => decide (4 ≤ r.toNat ∨ r = 0)
  | .vclt _ _ _ _ r => decide (4 ≤ r.toNat ∨ r = 0)
  | .vcle _ _ _ _ r => decide (4 ≤ r.toNat ∨ r = 0)
  | .vcun _ _ _ _ r => decide (4 ≤ r.toNat ∨ r = 0)
  | .vctst _ _ _ _ r => decide (4 ≤ r.toNat ∨ r = 0)
  | .vcvt _ _ t _ _ r => decide (t.toNat ≤ 27 ∧ r ≠ 6)
  | .vand _ _ _ _ r => decide (4 ≤ r.toNat ∨ r = 0)
  | .vor _ _ _ _ r => decide (4 ≤ r.toNat ∨ r = 0)
  | .vxor _ _ _ _ r => decide (4 ≤ r.toNat ∨ r = 0)
  | .vshl _ _ _ _ r => decide (4 ≤ r.toNat ∨ r = 0)
  | .vshr _ _ _ _ r => decide (4 ≤ r.toNat ∨ r = 0)
  | .vperm _ _ _ _ => true
  | .vslide _ _ _ _ => true
  | .vredsum _ _ _ => true
  | .vredmin _ _ _ => true
  | .vredmax _ _ _ => true
  | .vredand _ _ _ => true
  | .vredor _ _ _ => true
  | .vredxor _ _ _ => true
  | .vmatch _ _ _ => true
  | .vexpand _ _ _ => true
  | .vcompress _ _ _ => true
  | .vunpack _ _ _ => true
  | .vrev _ _ _ => true
  | .vld _ _ _ _ => true
  | .vlds _ _ _ _ _ => true
  | .vldx _ _ _ _ _ => true
  | .vldl _ _ _ _ _ => true
  | .vst _ _ _ _ => true
  | .vsts _ _ _ _ _ => true
  | .vstx _ _ _ _ _ => true
  | .vstl _ _ _ _ _ => true
  | .emit _ _ _ => true
  | .launch _ _ _ => true
  | .suspend _ _ _ => true
  | .yield _ => true
  | .penq _ _ _ => true
  | .waita _ _ _ _ k => decide (k.toNat ≤ 5)
  | .vwait _ _ _ _ k => decide (k.toNat ≤ 5)
  | .barArrive _ b => decide (b.toNat ≤ 15)
  | .barWait _ b => decide (b.toNat ≤ 15)
  | .barSync b => decide (b.toNat ≤ 15)
  | .lkstall _ k => decide (k.toNat ≤ 3)
  | .lkstallc _ k => decide (k.toNat ≤ 3)
  | .lkcount _ k => decide (k.toNat ≤ 3)
  | .fence _ s => decide (s ≠ 7)
  | .fenceAll s => decide (s ≠ 7)
  | .cellPropose d _ _ => decide (d ≠ 0 ∧ d.toNat % 2 = 0)
  | .cellRead d _ => decide (d ≠ 0 ∧ d.toNat % 2 = 0)
  | .cellRecycle d _ => decide (d ≠ 0 ∧ d.toNat % 2 = 0)
  | .shapeSeal _ _ => true
  | .shapeFence _ _ => true
  | .shapeDrop _ _ => true
  | .crange _ _ => true
  | .crangeDrop _ _ => true
  | .vrred _ _ k _ => decide (k.toNat ≤ 7)
  | .stBits _ _ _ => true
  | .mqCopy _ _ => true
  | .sbArm _ _ => true
  | .sbWait _ => true
  | .sbReset _ => true
  | .sbState _ _ => true
  | .sbCount _ _ => true
  | .slLoad _ _ => true
  | .peClear _ _ => true
  | .peLoad _ _ => true
  | .peMma _ _ => true
  | .peStore _ _ => true
  | .ceRun _ => true
  | .gxCommit _ _ _ => true
  | .eregW e i _ => decide (engineIndexOk e.toNat i.toNat = true)
  | .eregR e i _ => decide (engineIndexOk e.toNat i.toNat = true)
  | .texSmp _ _ _ _ => true
  | .texGrad _ _ _ _ => true
  | .texFetch _ _ _ _ => true
  | .rbox _ _ _ _ => true
  | .rtri _ _ _ _ => true
  | .vmm _ _ _ k => decide (k.toNat % 2 = 0)
  | .crr _ n => decide (crListed n.toNat = true)
  | .crw _ _ n => decide (crListed n.toNat = true)
  | .crs _ _ n => decide (crListed n.toNat = true)
  | .crc _ _ n => decide (crListed n.toNat = true)
  | .pfx _ _ _ _ _ _ _ => true
  | .mcAdd _ _ _ => true
  | .mcSub _ _ _ => true
  | .mcAnd _ _ _ => true
  | .mcOr _ _ _ => true
  | .mcXor _ _ _ => true
  | .mcShl _ _ _ => true
  | .mcShr _ _ _ => true
  | .mcMul _ _ _ => true
  | .mcAddi _ _ _ => true
  | .mcShli _ _ _ => true
  | .mcB k _ _ _ => decide (k.toNat ≤ 5)
  | .mcRd _ _ _ => true
  | .mcWr _ _ _ => true
  | .mcLdb _ _ _ => true
  | .mcStb _ _ _ => true
  | .mcElem _ _ _ => true
  | .loop => true
  | .done => true
  | .penqReply => true
  | .penqTimeout => true
  | .waitWake => true
  | .barWaitResume => true
  | .linkParkedIssue => true
  | .cellRecycleReleaseDone => true
  | .sbWaitResume => true
  | .slLoadRow => true
  | .peMmaStep => true
  | .peTileStep => true
  | .chainStep => true
  | .gxState => true
  | .gxPrim => true
  | .binnerRecord => true
  | .gxFlush => true
  | .gxEnd => true
  | .tileReplay => true
  | .resolverTileStart => true
  | .visibilityFinal => true
  | .translucentTaskEmit => true
  | .commitPerform => true
  | .tileSlotRelease => true
  | .bvBuild => true
  | .buildItem => true
  | .engineCommandComplete => true
  | .engineFault => true
  | .mqCopyPiece => true
  | .mcInvocation => true
  | .sys => true
  | .brk => true
  | .tret => true
  | .vlmaxpWrite => true
  | .fresRetry => true
  | .fresReissue => true
  | .fresKill => true
  | .fresExtend => true
  | .rctlResume => true
  | .rctlSuspend => true
  | .rctlKill => true
  | .qsave => true
  | .tlbinvPage => true
  | .tlbinvAll => true
  | .mcEnd => true
  | .dispatchGrant => true
  | .pickUp => true
  | .slotRetirement => true
  | .queueRoomResume => true
  | .taskLimit => true
  | .stageGovernorEvaluation => true
  | .balancerCycle => true
  | .migrationCommand => true
  | .windowEnqueue => true
  | .clktsTick => true
  | .localTrapEntry => true
  | .faultDomainDelivery => true
  | .faultRecordEnqueue => true
  | .pageWalk => true
  | .sliceEviction => true
  | .lineFill => true
  | .lineWriteback => true
  | .homeRead => true
  | .homeUpgrade => true
  | .sliceInvalidation => true
  | .dtRiseReport => true
  | .seamFlitReplay => true
  | .seamLoss => true
  | .snpinv => true
  | .snpdata => true
  | .snpcur => true
  | .memrd => true
  | .memwr => true
  | .meminv => true
  | .bisnpResponse => true
  | .peerAccessPacket => true
  | .remoteReducePacket => true
  | .dieIdle => true
  | .dieWake => true
  | .clockLevelStep => true
  | .moduleReset => true
  | .boot => true
  | .imageLoad => true
  | .regionCreate => true
  | .regionKill => true
  | .queueBind => true
  | .checkpoint => true
  | .restore => true
  | .attest => true
  | .telemetry => true
  | .engineReset => true
  | .shutdown => true
  | .nargWrite => true
  | .ncmdWriteWhileBusy => true
  | .unknownCommandCode => true
  | .proxyHomeLineFill => true
  | .acknowledgementReturn => true
  | .packetForwarding => true
  | .powerRefresh => true

/-- The rows of the table that have a word a core fetches. -/
def Instr.hasWord : Instr → Bool
  | .addi _ _ _ => true
  | .andi _ _ _ => true
  | .ori _ _ _ => true
  | .xori _ _ _ => true
  | .clti _ _ _ => true
  | .cltiu _ _ _ => true
  | .slli _ _ _ => true
  | .srli _ _ _ => true
  | .srai _ _ _ => true
  | .rori _ _ _ => true
  | .add _ _ _ => true
  | .sub _ _ _ => true
  | .and _ _ _ => true
  | .or _ _ _ => true
  | .xor _ _ _ => true
  | .andn _ _ _ => true
  | .sll _ _ _ => true
  | .srl _ _ _ => true
  | .sra _ _ _ => true
  | .ror _ _ _ => true
  | .min _ _ _ => true
  | .minu _ _ _ => true
  | .max _ _ _ => true
  | .maxu _ _ _ => true
  | .mul _ _ _ => true
  | .mulh _ _ _ => true
  | .mulhu _ _ _ => true
  | .mulhsu _ _ _ => true
  | .div _ _ _ => true
  | .divu _ _ _ => true
  | .rem _ _ _ => true
  | .remu _ _ _ => true
  | .clz _ _ => true
  | .ctz _ _ => true
  | .popc _ _ => true
  | .bswap _ _ => true
  | .bilv2 _ _ _ => true
  | .bilv3 _ _ _ => true
  | .bext2 _ _ _ => true
  | .bext3 _ _ _ => true
  | .ceq _ _ _ => true
  | .cne _ _ _ => true
  | .clt _ _ _ => true
  | .cge _ _ _ => true
  | .cltu _ _ _ => true
  | .cgeu _ _ _ => true
  | .fadd _ _ _ _ _ => true
  | .fsub _ _ _ _ _ => true
  | .fmul _ _ _ _ _ => true
  | .fdiv _ _ _ _ _ => true
  | .fsqrt _ _ _ _ => true
  | .fmin _ _ _ _ => true
  | .fmax _ _ _ _ => true
  | .fmac _ _ _ _ _ => true
  | .fnmac _ _ _ _ _ => true
  | .fceq _ _ _ _ => true
  | .fclt _ _ _ _ => true
  | .fcle _ _ _ _ => true
  | .fcvtf _ _ _ _ _ => true
  | .fcvtt _ _ _ _ _ => true
  | .fclass _ _ _ => true
  | .li _ _ => true
  | .lis _ _ => true
  | .pcseg _ _ => true
  | .ins16 _ _ _ => true
  | .beq _ _ _ => true
  | .bne _ _ _ => true
  | .blt _ _ _ => true
  | .bge _ _ _ => true
  | .bltu _ _ _ => true
  | .bgeu _ _ _ => true
  | .bfs _ _ => true
  | .bfc _ _ => true
  | .j _ => true
  | .jalr _ _ _ => true
  | .lcount _ _ => true
  | .lstride _ _ _ => true
  | .ldB _ _ _ _ => true
  | .ldBu _ _ _ _ => true
  | .ldH _ _ _ _ => true
  | .ldHu _ _ _ _ => true
  | .ldW _ _ _ _ => true
  | .ldWu _ _ _ _ => true
  | .ldD _ _ _ _ => true
  | .stB _ _ _ _ => true
  | .stH _ _ _ _ => true
  | .stW _ _ _ _ => true
  | .stD _ _ _ _ => true
  | .stq _ _ _ _ => true
  | .stqV _ _ _ _ => true
  | .amoLd _ _ _ _ _ _ _ => true
  | .amoSt _ _ _ _ _ _ _ => true
  | .amoSwap _ _ _ _ _ _ _ => true
  | .amoCas _ _ _ _ _ _ _ => true
  | .amoAdd _ _ _ _ _ _ _ => true
  | .amoAnd _ _ _ _ _ _ _ => true
  | .amoOr _ _ _ _ _ _ _ => true
  | .amoXor _ _ _ _ _ _ _ => true
  | .amoMin _ _ _ _ _ _ _ => true
  | .amoMax _ _ _ _ _ _ _ => true
  | .amoMinu _ _ _ _ _ _ _ => true
  | .amoMaxu _ _ _ _ _ _ _ => true
  | .vamoLd _ _ _ _ _ _ _ => true
  | .vamoSt _ _ _ _ _ _ _ => true
  | .vamoSwap _ _ _ _ _ _ _ => true
  | .vamoCas _ _ _ _ _ _ _ => true
  | .vamoAdd _ _ _ _ _ _ _ => true
  | .vamoAnd _ _ _ _ _ _ _ => true
  | .vamoOr _ _ _ _ _ _ _ => true
  | .vamoXor _ _ _ _ _ _ _ => true
  | .vamoMin _ _ _ _ _ _ _ => true
  | .vamoMax _ _ _ _ _ _ _ => true
  | .vamoMinu _ _ _ _ _ _ _ => true
  | .vamoMaxu _ _ _ _ _ _ _ => true
  | .vcfg _ _ _ _ => true
  | .vtag _ _ => true
  | .vgetx _ _ _ => true
  | .vsetx _ _ _ => true
  | .vbcast _ _ _ => true
  | .vid _ _ => true
  | .vadd _ _ _ _ _ => true
  | .vsub _ _ _ _ _ => true
  | .vmul _ _ _ _ _ => true
  | .vmac _ _ _ _ _ => true
  | .vmin _ _ _ _ _ => true
  | .vmax _ _ _ _ _ => true
  | .vdiv _ _ _ _ _ => true
  | .vsqrt _ _ _ _ => true
  | .vabs _ _ _ _ => true
  | .vneg _ _ _ _ => true
  | .vnot _ _ _ _ => true
  | .vclz _ _ _ _ => true
  | .vpopc _ _ _ _ => true
  | .vbilv2 _ _ _ _ => true
  | .vbext2 _ _ _ _ => true
  | .vmov _ _ _ _ => true
  | .vceq _ _ _ _ _ => true
  | .vcne _ _ _ _ _ => true
  | .vclt _ _ _ _ _ => true
  | .vcle _ _ _ _ _ => true
  | .vcun _ _ _ _ _ => true
  | .vctst _ _ _ _ _ => true
  | .vcvt _ _ _ _ _ _ => true
  | .vand _ _ _ _ _ => true
  | .vor _ _ _ _ _ => true
  | .vxor _ _ _ _ _ => true
  | .vshl _ _ _ _ _ => true
  | .vshr _ _ _ _ _ => true
  | .vperm _ _ _ _ => true
  | .vslide _ _ _ _ => true
  | .vredsum _ _ _ => true
  | .vredmin _ _ _ => true
  | .vredmax _ _ _ => true
  | .vredand _ _ _ => true
  | .vredor _ _ _ => true
  | .vredxor _ _ _ => true
  | .vmatch _ _ _ => true
  | .vexpand _ _ _ => true
  | .vcompress _ _ _ => true
  | .vunpack _ _ _ => true
  | .vrev _ _ _ => true
  | .vld _ _ _ _ => true
  | .vlds _ _ _ _ _ => true
  | .vldx _ _ _ _ _ => true
  | .vldl _ _ _ _ _ => true
  | .vst _ _ _ _ => true
  | .vsts _ _ _ _ _ => true
  | .vstx _ _ _ _ _ => true
  | .vstl _ _ _ _ _ => true
  | .emit _ _ _ => true
  | .launch _ _ _ => true
  | .suspend _ _ _ => true
  | .yield _ => true
  | .penq _ _ _ => true
  | .waita _ _ _ _ _ => true
  | .vwait _ _ _ _ _ => true
  | .barArrive _ _ => true
  | .barWait _ _ => true
  | .barSync _ => true
  | .lkstall _ _ => true
  | .lkstallc _ _ => true
  | .lkcount _ _ => true
  | .fence _ _ => true
  | .fenceAll _ => true
  | .cellPropose _ _ _ => true
  | .cellRead _ _ => true
  | .cellRecycle _ _ => true
  | .shapeSeal _ _ => true
  | .shapeFence _ _ => true
  | .shapeDrop _ _ => true
  | .crange _ _ => true
  | .crangeDrop _ _ => true
  | .vrred _ _ _ _ => true
  | .stBits _ _ _ => true
  | .mqCopy _ _ => true
  | .sbArm _ _ => true
  | .sbWait _ => true
  | .sbReset _ => true
  | .sbState _ _ => true
  | .sbCount _ _ => true
  | .slLoad _ _ => true
  | .peClear _ _ => true
  | .peLoad _ _ => true
  | .peMma _ _ => true
  | .peStore _ _ => true
  | .ceRun _ => true
  | .gxCommit _ _ _ => true
  | .eregW _ _ _ => true
  | .eregR _ _ _ => true
  | .texSmp _ _ _ _ => true
  | .texGrad _ _ _ _ => true
  | .texFetch _ _ _ _ => true
  | .rbox _ _ _ _ => true
  | .rtri _ _ _ _ => true
  | .vmm _ _ _ _ => true
  | .crr _ _ => true
  | .crw _ _ _ => true
  | .crs _ _ _ => true
  | .crc _ _ _ => true
  | .pfx _ _ _ _ _ _ _ => true
  | .mcAdd _ _ _ => false
  | .mcSub _ _ _ => false
  | .mcAnd _ _ _ => false
  | .mcOr _ _ _ => false
  | .mcXor _ _ _ => false
  | .mcShl _ _ _ => false
  | .mcShr _ _ _ => false
  | .mcMul _ _ _ => false
  | .mcAddi _ _ _ => false
  | .mcShli _ _ _ => false
  | .mcB _ _ _ _ => false
  | .mcRd _ _ _ => false
  | .mcWr _ _ _ => false
  | .mcLdb _ _ _ => false
  | .mcStb _ _ _ => false
  | .mcElem _ _ _ => false
  | .loop => true
  | .done => true
  | .penqReply => false
  | .penqTimeout => false
  | .waitWake => false
  | .barWaitResume => false
  | .linkParkedIssue => false
  | .cellRecycleReleaseDone => false
  | .sbWaitResume => false
  | .slLoadRow => false
  | .peMmaStep => false
  | .peTileStep => false
  | .chainStep => false
  | .gxState => true
  | .gxPrim => true
  | .binnerRecord => false
  | .gxFlush => true
  | .gxEnd => true
  | .tileReplay => false
  | .resolverTileStart => false
  | .visibilityFinal => false
  | .translucentTaskEmit => false
  | .commitPerform => false
  | .tileSlotRelease => false
  | .bvBuild => true
  | .buildItem => false
  | .engineCommandComplete => false
  | .engineFault => false
  | .mqCopyPiece => false
  | .mcInvocation => false
  | .sys => true
  | .brk => true
  | .tret => true
  | .vlmaxpWrite => false
  | .fresRetry => false
  | .fresReissue => false
  | .fresKill => false
  | .fresExtend => false
  | .rctlResume => false
  | .rctlSuspend => false
  | .rctlKill => false
  | .qsave => false
  | .tlbinvPage => false
  | .tlbinvAll => false
  | .mcEnd => false
  | .dispatchGrant => false
  | .pickUp => false
  | .slotRetirement => false
  | .queueRoomResume => false
  | .taskLimit => false
  | .stageGovernorEvaluation => false
  | .balancerCycle => false
  | .migrationCommand => false
  | .windowEnqueue => false
  | .clktsTick => false
  | .localTrapEntry => false
  | .faultDomainDelivery => false
  | .faultRecordEnqueue => false
  | .pageWalk => false
  | .sliceEviction => false
  | .lineFill => false
  | .lineWriteback => false
  | .homeRead => false
  | .homeUpgrade => false
  | .sliceInvalidation => false
  | .dtRiseReport => false
  | .seamFlitReplay => false
  | .seamLoss => false
  | .snpinv => false
  | .snpdata => false
  | .snpcur => false
  | .memrd => false
  | .memwr => false
  | .meminv => false
  | .bisnpResponse => false
  | .peerAccessPacket => false
  | .remoteReducePacket => false
  | .dieIdle => false
  | .dieWake => false
  | .clockLevelStep => false
  | .moduleReset => false
  | .boot => false
  | .imageLoad => false
  | .regionCreate => false
  | .regionKill => false
  | .queueBind => false
  | .checkpoint => false
  | .restore => false
  | .attest => false
  | .telemetry => false
  | .engineReset => false
  | .shutdown => false
  | .nargWrite => false
  | .ncmdWriteWhileBusy => false
  | .unknownCommandCode => false
  | .proxyHomeLineFill => false
  | .acknowledgementReturn => false
  | .packetForwarding => false
  | .powerRefresh => false

/-- The memory cores' stream instructions (R346). -/
def Instr.hasMcWord : Instr → Bool
  | .addi _ _ _ => false
  | .andi _ _ _ => false
  | .ori _ _ _ => false
  | .xori _ _ _ => false
  | .clti _ _ _ => false
  | .cltiu _ _ _ => false
  | .slli _ _ _ => false
  | .srli _ _ _ => false
  | .srai _ _ _ => false
  | .rori _ _ _ => false
  | .add _ _ _ => false
  | .sub _ _ _ => false
  | .and _ _ _ => false
  | .or _ _ _ => false
  | .xor _ _ _ => false
  | .andn _ _ _ => false
  | .sll _ _ _ => false
  | .srl _ _ _ => false
  | .sra _ _ _ => false
  | .ror _ _ _ => false
  | .min _ _ _ => false
  | .minu _ _ _ => false
  | .max _ _ _ => false
  | .maxu _ _ _ => false
  | .mul _ _ _ => false
  | .mulh _ _ _ => false
  | .mulhu _ _ _ => false
  | .mulhsu _ _ _ => false
  | .div _ _ _ => false
  | .divu _ _ _ => false
  | .rem _ _ _ => false
  | .remu _ _ _ => false
  | .clz _ _ => false
  | .ctz _ _ => false
  | .popc _ _ => false
  | .bswap _ _ => false
  | .bilv2 _ _ _ => false
  | .bilv3 _ _ _ => false
  | .bext2 _ _ _ => false
  | .bext3 _ _ _ => false
  | .ceq _ _ _ => false
  | .cne _ _ _ => false
  | .clt _ _ _ => false
  | .cge _ _ _ => false
  | .cltu _ _ _ => false
  | .cgeu _ _ _ => false
  | .fadd _ _ _ _ _ => false
  | .fsub _ _ _ _ _ => false
  | .fmul _ _ _ _ _ => false
  | .fdiv _ _ _ _ _ => false
  | .fsqrt _ _ _ _ => false
  | .fmin _ _ _ _ => false
  | .fmax _ _ _ _ => false
  | .fmac _ _ _ _ _ => false
  | .fnmac _ _ _ _ _ => false
  | .fceq _ _ _ _ => false
  | .fclt _ _ _ _ => false
  | .fcle _ _ _ _ => false
  | .fcvtf _ _ _ _ _ => false
  | .fcvtt _ _ _ _ _ => false
  | .fclass _ _ _ => false
  | .li _ _ => false
  | .lis _ _ => false
  | .pcseg _ _ => false
  | .ins16 _ _ _ => false
  | .beq _ _ _ => false
  | .bne _ _ _ => false
  | .blt _ _ _ => false
  | .bge _ _ _ => false
  | .bltu _ _ _ => false
  | .bgeu _ _ _ => false
  | .bfs _ _ => false
  | .bfc _ _ => false
  | .j _ => false
  | .jalr _ _ _ => false
  | .lcount _ _ => false
  | .lstride _ _ _ => false
  | .ldB _ _ _ _ => false
  | .ldBu _ _ _ _ => false
  | .ldH _ _ _ _ => false
  | .ldHu _ _ _ _ => false
  | .ldW _ _ _ _ => false
  | .ldWu _ _ _ _ => false
  | .ldD _ _ _ _ => false
  | .stB _ _ _ _ => false
  | .stH _ _ _ _ => false
  | .stW _ _ _ _ => false
  | .stD _ _ _ _ => false
  | .stq _ _ _ _ => false
  | .stqV _ _ _ _ => false
  | .amoLd _ _ _ _ _ _ _ => false
  | .amoSt _ _ _ _ _ _ _ => false
  | .amoSwap _ _ _ _ _ _ _ => false
  | .amoCas _ _ _ _ _ _ _ => false
  | .amoAdd _ _ _ _ _ _ _ => false
  | .amoAnd _ _ _ _ _ _ _ => false
  | .amoOr _ _ _ _ _ _ _ => false
  | .amoXor _ _ _ _ _ _ _ => false
  | .amoMin _ _ _ _ _ _ _ => false
  | .amoMax _ _ _ _ _ _ _ => false
  | .amoMinu _ _ _ _ _ _ _ => false
  | .amoMaxu _ _ _ _ _ _ _ => false
  | .vamoLd _ _ _ _ _ _ _ => false
  | .vamoSt _ _ _ _ _ _ _ => false
  | .vamoSwap _ _ _ _ _ _ _ => false
  | .vamoCas _ _ _ _ _ _ _ => false
  | .vamoAdd _ _ _ _ _ _ _ => false
  | .vamoAnd _ _ _ _ _ _ _ => false
  | .vamoOr _ _ _ _ _ _ _ => false
  | .vamoXor _ _ _ _ _ _ _ => false
  | .vamoMin _ _ _ _ _ _ _ => false
  | .vamoMax _ _ _ _ _ _ _ => false
  | .vamoMinu _ _ _ _ _ _ _ => false
  | .vamoMaxu _ _ _ _ _ _ _ => false
  | .vcfg _ _ _ _ => false
  | .vtag _ _ => false
  | .vgetx _ _ _ => false
  | .vsetx _ _ _ => false
  | .vbcast _ _ _ => false
  | .vid _ _ => false
  | .vadd _ _ _ _ _ => false
  | .vsub _ _ _ _ _ => false
  | .vmul _ _ _ _ _ => false
  | .vmac _ _ _ _ _ => false
  | .vmin _ _ _ _ _ => false
  | .vmax _ _ _ _ _ => false
  | .vdiv _ _ _ _ _ => false
  | .vsqrt _ _ _ _ => false
  | .vabs _ _ _ _ => false
  | .vneg _ _ _ _ => false
  | .vnot _ _ _ _ => false
  | .vclz _ _ _ _ => false
  | .vpopc _ _ _ _ => false
  | .vbilv2 _ _ _ _ => false
  | .vbext2 _ _ _ _ => false
  | .vmov _ _ _ _ => false
  | .vceq _ _ _ _ _ => false
  | .vcne _ _ _ _ _ => false
  | .vclt _ _ _ _ _ => false
  | .vcle _ _ _ _ _ => false
  | .vcun _ _ _ _ _ => false
  | .vctst _ _ _ _ _ => false
  | .vcvt _ _ _ _ _ _ => false
  | .vand _ _ _ _ _ => false
  | .vor _ _ _ _ _ => false
  | .vxor _ _ _ _ _ => false
  | .vshl _ _ _ _ _ => false
  | .vshr _ _ _ _ _ => false
  | .vperm _ _ _ _ => false
  | .vslide _ _ _ _ => false
  | .vredsum _ _ _ => false
  | .vredmin _ _ _ => false
  | .vredmax _ _ _ => false
  | .vredand _ _ _ => false
  | .vredor _ _ _ => false
  | .vredxor _ _ _ => false
  | .vmatch _ _ _ => false
  | .vexpand _ _ _ => false
  | .vcompress _ _ _ => false
  | .vunpack _ _ _ => false
  | .vrev _ _ _ => false
  | .vld _ _ _ _ => false
  | .vlds _ _ _ _ _ => false
  | .vldx _ _ _ _ _ => false
  | .vldl _ _ _ _ _ => false
  | .vst _ _ _ _ => false
  | .vsts _ _ _ _ _ => false
  | .vstx _ _ _ _ _ => false
  | .vstl _ _ _ _ _ => false
  | .emit _ _ _ => false
  | .launch _ _ _ => false
  | .suspend _ _ _ => false
  | .yield _ => false
  | .penq _ _ _ => false
  | .waita _ _ _ _ _ => false
  | .vwait _ _ _ _ _ => false
  | .barArrive _ _ => false
  | .barWait _ _ => false
  | .barSync _ => false
  | .lkstall _ _ => false
  | .lkstallc _ _ => false
  | .lkcount _ _ => false
  | .fence _ _ => false
  | .fenceAll _ => false
  | .cellPropose _ _ _ => false
  | .cellRead _ _ => false
  | .cellRecycle _ _ => false
  | .shapeSeal _ _ => false
  | .shapeFence _ _ => false
  | .shapeDrop _ _ => false
  | .crange _ _ => false
  | .crangeDrop _ _ => false
  | .vrred _ _ _ _ => false
  | .stBits _ _ _ => false
  | .mqCopy _ _ => false
  | .sbArm _ _ => false
  | .sbWait _ => false
  | .sbReset _ => false
  | .sbState _ _ => false
  | .sbCount _ _ => false
  | .slLoad _ _ => false
  | .peClear _ _ => false
  | .peLoad _ _ => false
  | .peMma _ _ => false
  | .peStore _ _ => false
  | .ceRun _ => false
  | .gxCommit _ _ _ => false
  | .eregW _ _ _ => false
  | .eregR _ _ _ => false
  | .texSmp _ _ _ _ => false
  | .texGrad _ _ _ _ => false
  | .texFetch _ _ _ _ => false
  | .rbox _ _ _ _ => false
  | .rtri _ _ _ _ => false
  | .vmm _ _ _ _ => false
  | .crr _ _ => false
  | .crw _ _ _ => false
  | .crs _ _ _ => false
  | .crc _ _ _ => false
  | .pfx _ _ _ _ _ _ _ => false
  | .mcAdd _ _ _ => true
  | .mcSub _ _ _ => true
  | .mcAnd _ _ _ => true
  | .mcOr _ _ _ => true
  | .mcXor _ _ _ => true
  | .mcShl _ _ _ => true
  | .mcShr _ _ _ => true
  | .mcMul _ _ _ => true
  | .mcAddi _ _ _ => true
  | .mcShli _ _ _ => true
  | .mcB _ _ _ _ => true
  | .mcRd _ _ _ => true
  | .mcWr _ _ _ => true
  | .mcLdb _ _ _ => true
  | .mcStb _ _ _ => true
  | .mcElem _ _ _ => true
  | .loop => false
  | .done => false
  | .penqReply => false
  | .penqTimeout => false
  | .waitWake => false
  | .barWaitResume => false
  | .linkParkedIssue => false
  | .cellRecycleReleaseDone => false
  | .sbWaitResume => false
  | .slLoadRow => false
  | .peMmaStep => false
  | .peTileStep => false
  | .chainStep => false
  | .gxState => false
  | .gxPrim => false
  | .binnerRecord => false
  | .gxFlush => false
  | .gxEnd => false
  | .tileReplay => false
  | .resolverTileStart => false
  | .visibilityFinal => false
  | .translucentTaskEmit => false
  | .commitPerform => false
  | .tileSlotRelease => false
  | .bvBuild => false
  | .buildItem => false
  | .engineCommandComplete => false
  | .engineFault => false
  | .mqCopyPiece => false
  | .mcInvocation => false
  | .sys => false
  | .brk => false
  | .tret => false
  | .vlmaxpWrite => false
  | .fresRetry => false
  | .fresReissue => false
  | .fresKill => false
  | .fresExtend => false
  | .rctlResume => false
  | .rctlSuspend => false
  | .rctlKill => false
  | .qsave => false
  | .tlbinvPage => false
  | .tlbinvAll => false
  | .mcEnd => true
  | .dispatchGrant => false
  | .pickUp => false
  | .slotRetirement => false
  | .queueRoomResume => false
  | .taskLimit => false
  | .stageGovernorEvaluation => false
  | .balancerCycle => false
  | .migrationCommand => false
  | .windowEnqueue => false
  | .clktsTick => false
  | .localTrapEntry => false
  | .faultDomainDelivery => false
  | .faultRecordEnqueue => false
  | .pageWalk => false
  | .sliceEviction => false
  | .lineFill => false
  | .lineWriteback => false
  | .homeRead => false
  | .homeUpgrade => false
  | .sliceInvalidation => false
  | .dtRiseReport => false
  | .seamFlitReplay => false
  | .seamLoss => false
  | .snpinv => false
  | .snpdata => false
  | .snpcur => false
  | .memrd => false
  | .memwr => false
  | .meminv => false
  | .bisnpResponse => false
  | .peerAccessPacket => false
  | .remoteReducePacket => false
  | .dieIdle => false
  | .dieWake => false
  | .clockLevelStep => false
  | .moduleReset => false
  | .boot => false
  | .imageLoad => false
  | .regionCreate => false
  | .regionKill => false
  | .queueBind => false
  | .checkpoint => false
  | .restore => false
  | .attest => false
  | .telemetry => false
  | .engineReset => false
  | .shutdown => false
  | .nargWrite => false
  | .ncmdWriteWhileBusy => false
  | .unknownCommandCode => false
  | .proxyHomeLineFill => false
  | .acknowledgementReturn => false
  | .packetForwarding => false
  | .powerRefresh => false

end Sys2Proof
end

