-- ==== Sys2Proof/Decode.lean ====
section
/-! DEFINITION. The decoder, total on any word, and the encoder. A word is refused (it traps ILLEGAL, check 2 of R66)
when its major or function is unallocated, a reserved field is nonzero, or a field names a value its form forbids
whatever the state (`Instr.wf`). Checks of the word that need the slot's state (its mode, STATUS.LM) are made by the
meanings. -/

namespace Sys2Proof

/-- Major 0x01. -/
def decMajor01 (w : BitVec 32) : Option Instr :=
  match (fld w 12 4).toNat with
  | 0 => some (.addi (fld w 21 5) (fld w 16 5) (fld w 0 12))
  | 1 => some (.andi (fld w 21 5) (fld w 16 5) (fld w 0 12))
  | 2 => some (.ori (fld w 21 5) (fld w 16 5) (fld w 0 12))
  | 3 => some (.xori (fld w 21 5) (fld w 16 5) (fld w 0 12))
  | 4 => some (.clti (fld w 21 5) (fld w 16 5) (fld w 0 12))
  | 5 => some (.cltiu (fld w 21 5) (fld w 16 5) (fld w 0 12))
  | 6 => if fld w 6 6 = 0 then some (.slli (fld w 21 5) (fld w 16 5) (fld w 0 6)) else none
  | 7 => if fld w 6 6 = 0 then some (.srli (fld w 21 5) (fld w 16 5) (fld w 0 6)) else none
  | 8 => if fld w 6 6 = 0 then some (.srai (fld w 21 5) (fld w 16 5) (fld w 0 6)) else none
  | 9 => if fld w 6 6 = 0 then some (.rori (fld w 21 5) (fld w 16 5) (fld w 0 6)) else none
  | _ => none

/-- Major 0x02. -/
def decMajor02 (w : BitVec 32) : Option Instr :=
  match (fld w 9 2).toNat with
  | 0 =>
    match (fld w 0 9).toNat with
    | 0 => some (.add (fld w 21 5) (fld w 16 5) (fld w 11 5))
    | 1 => some (.sub (fld w 21 5) (fld w 16 5) (fld w 11 5))
    | 2 => some (.and (fld w 21 5) (fld w 16 5) (fld w 11 5))
    | 3 => some (.or (fld w 21 5) (fld w 16 5) (fld w 11 5))
    | 4 => some (.xor (fld w 21 5) (fld w 16 5) (fld w 11 5))
    | 5 => some (.andn (fld w 21 5) (fld w 16 5) (fld w 11 5))
    | 6 => some (.sll (fld w 21 5) (fld w 16 5) (fld w 11 5))
    | 7 => some (.srl (fld w 21 5) (fld w 16 5) (fld w 11 5))
    | 8 => some (.sra (fld w 21 5) (fld w 16 5) (fld w 11 5))
    | 9 => some (.ror (fld w 21 5) (fld w 16 5) (fld w 11 5))
    | 10 => some (.min (fld w 21 5) (fld w 16 5) (fld w 11 5))
    | 11 => some (.minu (fld w 21 5) (fld w 16 5) (fld w 11 5))
    | 12 => some (.max (fld w 21 5) (fld w 16 5) (fld w 11 5))
    | 13 => some (.maxu (fld w 21 5) (fld w 16 5) (fld w 11 5))
    | 16 => some (.mul (fld w 21 5) (fld w 16 5) (fld w 11 5))
    | 17 => some (.mulh (fld w 21 5) (fld w 16 5) (fld w 11 5))
    | 18 => some (.mulhu (fld w 21 5) (fld w 16 5) (fld w 11 5))
    | 19 => some (.mulhsu (fld w 21 5) (fld w 16 5) (fld w 11 5))
    | 20 => some (.div (fld w 21 5) (fld w 16 5) (fld w 11 5))
    | 21 => some (.divu (fld w 21 5) (fld w 16 5) (fld w 11 5))
    | 22 => some (.rem (fld w 21 5) (fld w 16 5) (fld w 11 5))
    | 23 => some (.remu (fld w 21 5) (fld w 16 5) (fld w 11 5))
    | 32 => if fld w 11 5 = 0 then some (.clz (fld w 21 5) (fld w 16 5)) else none
    | 33 => if fld w 11 5 = 0 then some (.ctz (fld w 21 5) (fld w 16 5)) else none
    | 34 => if fld w 11 5 = 0 then some (.popc (fld w 21 5) (fld w 16 5)) else none
    | 35 => if fld w 11 5 = 0 then some (.bswap (fld w 21 5) (fld w 16 5)) else none
    | 40 => some (.bilv2 (fld w 21 5) (fld w 16 5) (fld w 11 5))
    | 41 => some (.bilv3 (fld w 21 5) (fld w 16 5) (fld w 11 5))
    | 42 => some (.bext2 (fld w 21 5) (fld w 16 5) (fld w 11 5))
    | 43 => some (.bext3 (fld w 21 5) (fld w 16 5) (fld w 11 5))
    | 48 => some (.ceq (fld w 21 5) (fld w 16 5) (fld w 11 5))
    | 49 => some (.cne (fld w 21 5) (fld w 16 5) (fld w 11 5))
    | 50 => some (.clt (fld w 21 5) (fld w 16 5) (fld w 11 5))
    | 51 => some (.cge (fld w 21 5) (fld w 16 5) (fld w 11 5))
    | 52 => some (.cltu (fld w 21 5) (fld w 16 5) (fld w 11 5))
    | 53 => some (.cgeu (fld w 21 5) (fld w 16 5) (fld w 11 5))
    | _ => none
  | 1 =>
    match (fld w 5 4).toNat with
    | 0 => some (.fadd (fld w 21 5) (fld w 16 5) (fld w 11 5) (fld w 3 2) (fld w 0 3))
    | 1 => some (.fsub (fld w 21 5) (fld w 16 5) (fld w 11 5) (fld w 3 2) (fld w 0 3))
    | 2 => some (.fmul (fld w 21 5) (fld w 16 5) (fld w 11 5) (fld w 3 2) (fld w 0 3))
    | 3 => some (.fdiv (fld w 21 5) (fld w 16 5) (fld w 11 5) (fld w 3 2) (fld w 0 3))
    | 4 => if fld w 11 5 = 0 then some (.fsqrt (fld w 21 5) (fld w 16 5) (fld w 3 2) (fld w 0 3)) else none
    | 5 => if fld w 0 3 = 0 then some (.fmin (fld w 21 5) (fld w 16 5) (fld w 11 5) (fld w 3 2)) else none
    | 6 => if fld w 0 3 = 0 then some (.fmax (fld w 21 5) (fld w 16 5) (fld w 11 5) (fld w 3 2)) else none
    | 7 => some (.fmac (fld w 21 5) (fld w 16 5) (fld w 11 5) (fld w 3 2) (fld w 0 3))
    | 8 => some (.fnmac (fld w 21 5) (fld w 16 5) (fld w 11 5) (fld w 3 2) (fld w 0 3))
    | 9 => if fld w 0 3 = 0 then some (.fceq (fld w 21 5) (fld w 16 5) (fld w 11 5) (fld w 3 2)) else none
    | 10 => if fld w 0 3 = 0 then some (.fclt (fld w 21 5) (fld w 16 5) (fld w 11 5) (fld w 3 2)) else none
    | 11 => if fld w 0 3 = 0 then some (.fcle (fld w 21 5) (fld w 16 5) (fld w 11 5) (fld w 3 2)) else none
    | 12 => some (.fcvtf (fld w 21 5) (fld w 16 5) (fld w 11 5) (fld w 3 2) (fld w 0 3))
    | 13 => some (.fcvtt (fld w 21 5) (fld w 16 5) (fld w 11 5) (fld w 3 2) (fld w 0 3))
    | 14 => if fld w 0 3 = 0 ∧ fld w 11 5 = 0 then some (.fclass (fld w 21 5) (fld w 16 5) (fld w 3 2)) else none
    | _ => none
  | _ => none

/-- Major 0x03. -/
def decMajor03 (w : BitVec 32) : Option Instr :=
  match (fld w 16 5).toNat with
  | 0 => some (.li (fld w 21 5) (fld w 0 16))
  | 1 => some (.lis (fld w 21 5) (fld w 0 16))
  | 2 => some (.pcseg (fld w 21 5) (fld w 0 16))
  | 4 => some (.ins16 (fld w 21 5) (fld w 16 2) (fld w 0 16))
  | 5 => some (.ins16 (fld w 21 5) (fld w 16 2) (fld w 0 16))
  | 6 => some (.ins16 (fld w 21 5) (fld w 16 2) (fld w 0 16))
  | 7 => some (.ins16 (fld w 21 5) (fld w 16 2) (fld w 0 16))
  | _ => none

/-- Major 0x04. -/
def decMajor04 (w : BitVec 32) : Option Instr :=
  match (fld w 23 3).toNat with
  | 0 => some (.beq (fld w 18 5) (fld w 13 5) (fld w 0 13))
  | 1 => some (.bne (fld w 18 5) (fld w 13 5) (fld w 0 13))
  | 2 => some (.blt (fld w 18 5) (fld w 13 5) (fld w 0 13))
  | 3 => some (.bge (fld w 18 5) (fld w 13 5) (fld w 0 13))
  | 4 => some (.bltu (fld w 18 5) (fld w 13 5) (fld w 0 13))
  | 5 => some (.bgeu (fld w 18 5) (fld w 13 5) (fld w 0 13))
  | 6 => if fld w 13 5 = 0 then some (.bfs (fld w 18 5) (fld w 0 13)) else none
  | 7 => if fld w 13 5 = 0 then some (.bfc (fld w 18 5) (fld w 0 13)) else none
  | _ => none

/-- Major 0x05. -/
def decMajor05 (w : BitVec 32) : Option Instr :=
  some (.j (fld w 0 26))

/-- Major 0x06. -/
def decMajor06 (w : BitVec 32) : Option Instr :=
  some (.jalr (fld w 21 5) (fld w 16 5) (fld w 0 16))

/-- Major 0x07. -/
def decMajor07 (w : BitVec 32) : Option Instr :=
  match (fld w 0 11).toNat with
  | 0 => if fld w 11 15 = 0 then some (.loop) else none
  | 1 => if fld w 11 5 = 0 then some (.lcount (fld w 21 5) (fld w 16 5)) else none
  | 2 => some (.lstride (fld w 21 5) (fld w 16 5) (fld w 11 5))
  | _ => none

/-- Major 0x08. -/
def decMajor08 (w : BitVec 32) : Option Instr :=
  some (.ldB (fld w 21 5) (fld w 16 5) (fld w 12 4) (fld w 0 12))

/-- Major 0x09. -/
def decMajor09 (w : BitVec 32) : Option Instr :=
  some (.ldBu (fld w 21 5) (fld w 16 5) (fld w 12 4) (fld w 0 12))

/-- Major 0x0A. -/
def decMajor0A (w : BitVec 32) : Option Instr :=
  some (.ldH (fld w 21 5) (fld w 16 5) (fld w 12 4) (fld w 0 12))

/-- Major 0x0B. -/
def decMajor0B (w : BitVec 32) : Option Instr :=
  some (.ldHu (fld w 21 5) (fld w 16 5) (fld w 12 4) (fld w 0 12))

/-- Major 0x0C. -/
def decMajor0C (w : BitVec 32) : Option Instr :=
  some (.ldW (fld w 21 5) (fld w 16 5) (fld w 12 4) (fld w 0 12))

/-- Major 0x0D. -/
def decMajor0D (w : BitVec 32) : Option Instr :=
  some (.ldWu (fld w 21 5) (fld w 16 5) (fld w 12 4) (fld w 0 12))

/-- Major 0x0E. -/
def decMajor0E (w : BitVec 32) : Option Instr :=
  some (.ldD (fld w 21 5) (fld w 16 5) (fld w 12 4) (fld w 0 12))

/-- Major 0x10. -/
def decMajor10 (w : BitVec 32) : Option Instr :=
  some (.stB (fld w 21 5) (fld w 16 5) (fld w 12 4) (fld w 0 12))

/-- Major 0x11. -/
def decMajor11 (w : BitVec 32) : Option Instr :=
  some (.stH (fld w 21 5) (fld w 16 5) (fld w 12 4) (fld w 0 12))

/-- Major 0x12. -/
def decMajor12 (w : BitVec 32) : Option Instr :=
  some (.stW (fld w 21 5) (fld w 16 5) (fld w 12 4) (fld w 0 12))

/-- Major 0x13. -/
def decMajor13 (w : BitVec 32) : Option Instr :=
  some (.stD (fld w 21 5) (fld w 16 5) (fld w 12 4) (fld w 0 12))

/-- Major 0x14. -/
def decMajor14 (w : BitVec 32) : Option Instr :=
  match (fld w 0 1).toNat with
  | 0 => some (.stq (fld w 21 5) (fld w 16 5) (fld w 12 4) (fld w 1 11))
  | 1 => some (.stqV (fld w 21 5) (fld w 16 5) (fld w 12 4) (fld w 1 11))
  | _ => none

/-- Major 0x15. -/
def decMajor15 (w : BitVec 32) : Option Instr :=
  match (fld w 11 5).toNat with
  | 0 => some (.amoLd (fld w 21 5) (fld w 16 5) (fld w 10 1) (fld w 9 1) (fld w 6 3) (fld w 2 4) (fld w 0 2))
  | 1 => some (.amoSt (fld w 21 5) (fld w 16 5) (fld w 10 1) (fld w 9 1) (fld w 6 3) (fld w 2 4) (fld w 0 2))
  | 2 => some (.amoSwap (fld w 21 5) (fld w 16 5) (fld w 10 1) (fld w 9 1) (fld w 6 3) (fld w 2 4) (fld w 0 2))
  | 3 => some (.amoCas (fld w 21 5) (fld w 16 5) (fld w 10 1) (fld w 9 1) (fld w 6 3) (fld w 2 4) (fld w 0 2))
  | 4 => some (.amoAdd (fld w 21 5) (fld w 16 5) (fld w 10 1) (fld w 9 1) (fld w 6 3) (fld w 2 4) (fld w 0 2))
  | 5 => some (.amoAnd (fld w 21 5) (fld w 16 5) (fld w 10 1) (fld w 9 1) (fld w 6 3) (fld w 2 4) (fld w 0 2))
  | 6 => some (.amoOr (fld w 21 5) (fld w 16 5) (fld w 10 1) (fld w 9 1) (fld w 6 3) (fld w 2 4) (fld w 0 2))
  | 7 => some (.amoXor (fld w 21 5) (fld w 16 5) (fld w 10 1) (fld w 9 1) (fld w 6 3) (fld w 2 4) (fld w 0 2))
  | 8 => some (.amoMin (fld w 21 5) (fld w 16 5) (fld w 10 1) (fld w 9 1) (fld w 6 3) (fld w 2 4) (fld w 0 2))
  | 9 => some (.amoMax (fld w 21 5) (fld w 16 5) (fld w 10 1) (fld w 9 1) (fld w 6 3) (fld w 2 4) (fld w 0 2))
  | 10 => some (.amoMinu (fld w 21 5) (fld w 16 5) (fld w 10 1) (fld w 9 1) (fld w 6 3) (fld w 2 4) (fld w 0 2))
  | 11 => some (.amoMaxu (fld w 21 5) (fld w 16 5) (fld w 10 1) (fld w 9 1) (fld w 6 3) (fld w 2 4) (fld w 0 2))
  | _ => none

/-- Major 0x18. -/
def decMajor18 (w : BitVec 32) : Option Instr :=
  match (fld w 0 3).toNat with
  | 0 => if fld w 3 8 = 0 then some (.vcfg (fld w 21 5) (fld w 16 5) (fld w 14 2) (fld w 11 3)) else none
  | 1 => if fld w 3 8 = 0 ∧ fld w 16 5 = 0 then some (.vtag (fld w 21 5) (fld w 11 5)) else none
  | 2 => if fld w 3 8 = 0 then some (.vgetx (fld w 21 5) (fld w 16 5) (fld w 11 5)) else none
  | 3 => if fld w 3 8 = 0 then some (.vsetx (fld w 21 5) (fld w 16 5) (fld w 11 5)) else none
  | 4 => if fld w 3 3 = 0 ∧ fld w 11 5 = 0 then some (.vbcast (fld w 21 5) (fld w 16 5) (fld w 6 5)) else none
  | 5 => if fld w 3 3 = 0 ∧ fld w 11 10 = 0 then some (.vid (fld w 21 5) (fld w 6 5)) else none
  | _ => none

/-- Major 0x19. -/
def decMajor19 (w : BitVec 32) : Option Instr :=
  match (fld w 0 3).toNat with
  | 0 => some (.vadd (fld w 21 5) (fld w 16 5) (fld w 11 5) (fld w 6 5) (fld w 3 3))
  | 1 => some (.vsub (fld w 21 5) (fld w 16 5) (fld w 11 5) (fld w 6 5) (fld w 3 3))
  | 2 => some (.vmul (fld w 21 5) (fld w 16 5) (fld w 11 5) (fld w 6 5) (fld w 3 3))
  | 3 => some (.vmac (fld w 21 5) (fld w 16 5) (fld w 11 5) (fld w 6 5) (fld w 3 3))
  | 4 => some (.vmin (fld w 21 5) (fld w 16 5) (fld w 11 5) (fld w 6 5) (fld w 3 3))
  | 5 => some (.vmax (fld w 21 5) (fld w 16 5) (fld w 11 5) (fld w 6 5) (fld w 3 3))
  | 6 => some (.vdiv (fld w 21 5) (fld w 16 5) (fld w 11 5) (fld w 6 5) (fld w 3 3))
  | 7 =>
    match (fld w 11 5).toNat with
    | 0 => if fld w 5 1 = 0 then some (.vsqrt (fld w 21 5) (fld w 16 5) (fld w 6 5) (fld w 3 2)) else none
    | 1 => if fld w 5 1 = 0 then some (.vabs (fld w 21 5) (fld w 16 5) (fld w 6 5) (fld w 3 2)) else none
    | 2 => if fld w 5 1 = 0 then some (.vneg (fld w 21 5) (fld w 16 5) (fld w 6 5) (fld w 3 2)) else none
    | 3 => if fld w 5 1 = 0 then some (.vnot (fld w 21 5) (fld w 16 5) (fld w 6 5) (fld w 3 2)) else none
    | 4 => if fld w 5 1 = 0 then some (.vclz (fld w 21 5) (fld w 16 5) (fld w 6 5) (fld w 3 2)) else none
    | 5 => if fld w 5 1 = 0 then some (.vpopc (fld w 21 5) (fld w 16 5) (fld w 6 5) (fld w 3 2)) else none
    | 6 => if fld w 5 1 = 0 then some (.vbilv2 (fld w 21 5) (fld w 16 5) (fld w 6 5) (fld w 3 2)) else none
    | 7 => if fld w 5 1 = 0 then some (.vbext2 (fld w 21 5) (fld w 16 5) (fld w 6 5) (fld w 3 2)) else none
    | 8 => if fld w 5 1 = 0 then some (.vmov (fld w 21 5) (fld w 16 5) (fld w 6 5) (fld w 3 2)) else none
    | _ => none
  | _ => none

/-- Major 0x1A. -/
def decMajor1A (w : BitVec 32) : Option Instr :=
  match (fld w 0 3).toNat with
  | 0 => some (.vceq (fld w 21 5) (fld w 16 5) (fld w 11 5) (fld w 6 5) (fld w 3 3))
  | 1 => some (.vcne (fld w 21 5) (fld w 16 5) (fld w 11 5) (fld w 6 5) (fld w 3 3))
  | 2 => some (.vclt (fld w 21 5) (fld w 16 5) (fld w 11 5) (fld w 6 5) (fld w 3 3))
  | 3 => some (.vcle (fld w 21 5) (fld w 16 5) (fld w 11 5) (fld w 6 5) (fld w 3 3))
  | 4 => some (.vcun (fld w 21 5) (fld w 16 5) (fld w 11 5) (fld w 6 5) (fld w 3 3))
  | 5 => some (.vctst (fld w 21 5) (fld w 16 5) (fld w 11 5) (fld w 6 5) (fld w 3 3))
  | _ => none

/-- Major 0x1B. -/
def decMajor1B (w : BitVec 32) : Option Instr :=
  if fld w 4 2 = 0 then some (.vcvt (fld w 21 5) (fld w 16 5) (fld w 11 5) (fld w 6 5) (fld w 3 1) (fld w 0 3)) else none

/-- Major 0x1C. -/
def decMajor1C (w : BitVec 32) : Option Instr :=
  match (fld w 0 3).toNat with
  | 0 => some (.vand (fld w 21 5) (fld w 16 5) (fld w 11 5) (fld w 6 5) (fld w 3 3))
  | 1 => some (.vor (fld w 21 5) (fld w 16 5) (fld w 11 5) (fld w 6 5) (fld w 3 3))
  | 2 => some (.vxor (fld w 21 5) (fld w 16 5) (fld w 11 5) (fld w 6 5) (fld w 3 3))
  | 3 => some (.vshl (fld w 21 5) (fld w 16 5) (fld w 11 5) (fld w 6 5) (fld w 3 3))
  | 4 => some (.vshr (fld w 21 5) (fld w 16 5) (fld w 11 5) (fld w 6 5) (fld w 3 3))
  | 5 => if fld w 3 3 = 0 then some (.vperm (fld w 21 5) (fld w 16 5) (fld w 11 5) (fld w 6 5)) else none
  | 6 => if fld w 3 3 = 0 then some (.vslide (fld w 21 5) (fld w 16 5) (fld w 11 5) (fld w 6 5)) else none
  | 7 =>
    match (fld w 11 5).toNat with
    | 0 => if fld w 3 3 = 0 then some (.vredsum (fld w 21 5) (fld w 16 5) (fld w 6 5)) else none
    | 1 => if fld w 3 3 = 0 then some (.vredmin (fld w 21 5) (fld w 16 5) (fld w 6 5)) else none
    | 2 => if fld w 3 3 = 0 then some (.vredmax (fld w 21 5) (fld w 16 5) (fld w 6 5)) else none
    | 3 => if fld w 3 3 = 0 then some (.vredand (fld w 21 5) (fld w 16 5) (fld w 6 5)) else none
    | 4 => if fld w 3 3 = 0 then some (.vredor (fld w 21 5) (fld w 16 5) (fld w 6 5)) else none
    | 5 => if fld w 3 3 = 0 then some (.vredxor (fld w 21 5) (fld w 16 5) (fld w 6 5)) else none
    | 6 => if fld w 3 3 = 0 then some (.vmatch (fld w 21 5) (fld w 16 5) (fld w 6 5)) else none
    | 7 => if fld w 3 3 = 0 then some (.vexpand (fld w 21 5) (fld w 16 5) (fld w 6 5)) else none
    | 8 => if fld w 3 3 = 0 then some (.vcompress (fld w 21 5) (fld w 16 5) (fld w 6 5)) else none
    | 9 => if fld w 3 3 = 0 then some (.vunpack (fld w 21 5) (fld w 16 5) (fld w 6 5)) else none
    | 10 => if fld w 3 3 = 0 then some (.vrev (fld w 21 5) (fld w 16 5) (fld w 6 5)) else none
    | _ => none
  | _ => none

/-- Major 0x1D. -/
def decMajor1D (w : BitVec 32) : Option Instr :=
  match (fld w 0 2).toNat with
  | 0 => if fld w 11 5 = 0 then some (.vld (fld w 21 5) (fld w 16 5) (fld w 6 5) (fld w 2 4)) else none
  | 1 => some (.vlds (fld w 21 5) (fld w 16 5) (fld w 11 5) (fld w 6 5) (fld w 2 4))
  | 2 => some (.vldx (fld w 21 5) (fld w 16 5) (fld w 11 5) (fld w 6 5) (fld w 2 4))
  | 3 => some (.vldl (fld w 21 5) (fld w 16 5) (fld w 11 5) (fld w 6 5) (fld w 2 4))
  | _ => none

/-- Major 0x1E. -/
def decMajor1E (w : BitVec 32) : Option Instr :=
  match (fld w 0 2).toNat with
  | 0 => if fld w 11 5 = 0 then some (.vst (fld w 21 5) (fld w 16 5) (fld w 6 5) (fld w 2 4)) else none
  | 1 => some (.vsts (fld w 21 5) (fld w 16 5) (fld w 11 5) (fld w 6 5) (fld w 2 4))
  | 2 => some (.vstx (fld w 21 5) (fld w 16 5) (fld w 11 5) (fld w 6 5) (fld w 2 4))
  | 3 => some (.vstl (fld w 21 5) (fld w 16 5) (fld w 11 5) (fld w 6 5) (fld w 2 4))
  | _ => none

/-- Major 0x1F. -/
def decMajor1F (w : BitVec 32) : Option Instr :=
  match (fld w 11 5).toNat with
  | 0 => some (.vamoLd (fld w 21 5) (fld w 16 5) (fld w 10 1) (fld w 9 1) (fld w 6 3) (fld w 2 4) (fld w 0 2))
  | 1 => some (.vamoSt (fld w 21 5) (fld w 16 5) (fld w 10 1) (fld w 9 1) (fld w 6 3) (fld w 2 4) (fld w 0 2))
  | 2 => some (.vamoSwap (fld w 21 5) (fld w 16 5) (fld w 10 1) (fld w 9 1) (fld w 6 3) (fld w 2 4) (fld w 0 2))
  | 3 => some (.vamoCas (fld w 21 5) (fld w 16 5) (fld w 10 1) (fld w 9 1) (fld w 6 3) (fld w 2 4) (fld w 0 2))
  | 4 => some (.vamoAdd (fld w 21 5) (fld w 16 5) (fld w 10 1) (fld w 9 1) (fld w 6 3) (fld w 2 4) (fld w 0 2))
  | 5 => some (.vamoAnd (fld w 21 5) (fld w 16 5) (fld w 10 1) (fld w 9 1) (fld w 6 3) (fld w 2 4) (fld w 0 2))
  | 6 => some (.vamoOr (fld w 21 5) (fld w 16 5) (fld w 10 1) (fld w 9 1) (fld w 6 3) (fld w 2 4) (fld w 0 2))
  | 7 => some (.vamoXor (fld w 21 5) (fld w 16 5) (fld w 10 1) (fld w 9 1) (fld w 6 3) (fld w 2 4) (fld w 0 2))
  | 8 => some (.vamoMin (fld w 21 5) (fld w 16 5) (fld w 10 1) (fld w 9 1) (fld w 6 3) (fld w 2 4) (fld w 0 2))
  | 9 => some (.vamoMax (fld w 21 5) (fld w 16 5) (fld w 10 1) (fld w 9 1) (fld w 6 3) (fld w 2 4) (fld w 0 2))
  | 10 => some (.vamoMinu (fld w 21 5) (fld w 16 5) (fld w 10 1) (fld w 9 1) (fld w 6 3) (fld w 2 4) (fld w 0 2))
  | 11 => some (.vamoMaxu (fld w 21 5) (fld w 16 5) (fld w 10 1) (fld w 9 1) (fld w 6 3) (fld w 2 4) (fld w 0 2))
  | _ => none

/-- Major 0x20. -/
def decMajor20 (w : BitVec 32) : Option Instr :=
  match (fld w 0 11).toNat with
  | 0 => some (.emit (fld w 21 5) (fld w 16 5) (fld w 11 5))
  | 1 => some (.launch (fld w 21 5) (fld w 16 5) (fld w 11 5))
  | 2 => some (.suspend (fld w 21 5) (fld w 16 5) (fld w 11 5))
  | 3 => if fld w 11 5 = 0 ∧ fld w 21 5 = 0 then some (.yield (fld w 16 5)) else none
  | 4 => if fld w 11 15 = 0 then some (.done) else none
  | 5 => some (.penq (fld w 21 5) (fld w 16 5) (fld w 11 5))
  | _ => none

/-- Major 0x21. -/
def decMajor21 (w : BitVec 32) : Option Instr :=
  match (fld w 4 1).toNat with
  | 0 => if fld w 5 6 = 0 then some (.waita (fld w 21 5) (fld w 16 5) (fld w 11 5) (fld w 3 1) (fld w 0 3)) else none
  | 1 => if fld w 5 6 = 0 then some (.vwait (fld w 21 5) (fld w 16 5) (fld w 11 5) (fld w 3 1) (fld w 0 3)) else none
  | _ => none

/-- Major 0x22. -/
def decMajor22 (w : BitVec 32) : Option Instr :=
  match (fld w 0 11).toNat with
  | 0 => if fld w 16 5 = 0 then some (.barArrive (fld w 21 5) (fld w 11 5)) else none
  | 1 => if fld w 21 5 = 0 then some (.barWait (fld w 16 5) (fld w 11 5)) else none
  | 2 => if fld w 16 10 = 0 then some (.barSync (fld w 11 5)) else none
  | _ => none

/-- Major 0x23. -/
def decMajor23 (w : BitVec 32) : Option Instr :=
  match (fld w 0 11).toNat with
  | 0 => if fld w 16 5 = 0 then some (.lkstall (fld w 21 5) (fld w 11 5)) else none
  | 1 => if fld w 16 5 = 0 then some (.lkstallc (fld w 21 5) (fld w 11 5)) else none
  | 2 => if fld w 16 5 = 0 then some (.lkcount (fld w 21 5) (fld w 11 5)) else none
  | _ => none

/-- Major 0x24. -/
def decMajor24 (w : BitVec 32) : Option Instr :=
  match (fld w 3 1).toNat with
  | 0 => if fld w 4 12 = 0 ∧ fld w 21 5 = 0 then some (.fence (fld w 16 5) (fld w 0 3)) else none
  | 1 => if fld w 4 22 = 0 then some (.fenceAll (fld w 0 3)) else none
  | _ => none

/-- Major 0x25. -/
def decMajor25 (w : BitVec 32) : Option Instr :=
  match (fld w 0 11).toNat with
  | 0 => some (.cellPropose (fld w 21 5) (fld w 16 5) (fld w 11 5))
  | 1 => if fld w 11 5 = 0 then some (.cellRead (fld w 21 5) (fld w 16 5)) else none
  | 2 => if fld w 11 5 = 0 then some (.cellRecycle (fld w 21 5) (fld w 16 5)) else none
  | _ => none

/-- Major 0x26. -/
def decMajor26 (w : BitVec 32) : Option Instr :=
  match (fld w 0 11).toNat with
  | 0 => if fld w 11 5 = 0 then some (.shapeSeal (fld w 21 5) (fld w 16 5)) else none
  | 1 => if fld w 11 5 = 0 then some (.shapeFence (fld w 21 5) (fld w 16 5)) else none
  | 2 => if fld w 11 5 = 0 then some (.shapeDrop (fld w 21 5) (fld w 16 5)) else none
  | _ => none

/-- Major 0x27. -/
def decMajor27 (w : BitVec 32) : Option Instr :=
  match (fld w 0 6).toNat with
  | 0 => if fld w 6 10 = 0 then some (.crange (fld w 21 5) (fld w 16 5)) else none
  | 1 => if fld w 6 10 = 0 then some (.crangeDrop (fld w 21 5) (fld w 16 5)) else none
  | 2 => some (.vrred (fld w 21 5) (fld w 16 5) (fld w 11 5) (fld w 6 5))
  | 3 => if fld w 6 5 = 0 then some (.stBits (fld w 21 5) (fld w 16 5) (fld w 11 5)) else none
  | _ => none

/-- Major 0x28. -/
def decMajor28 (w : BitVec 32) : Option Instr :=
  match (fld w 23 3).toNat with
  | 0 =>
    match (fld w 16 7).toNat with
    | 0 => if fld w 0 6 = 0 then some (.mqCopy (fld w 11 5) (fld w 6 5)) else none
    | _ => none
  | 1 =>
    match (fld w 16 7).toNat with
    | 0 => if fld w 4 7 = 0 then some (.sbArm (fld w 11 5) (fld w 0 4)) else none
    | 1 => if fld w 4 12 = 0 then some (.sbWait (fld w 0 4)) else none
    | 2 => if fld w 4 12 = 0 then some (.sbReset (fld w 0 4)) else none
    | 3 => if fld w 4 2 = 0 ∧ fld w 11 5 = 0 then some (.sbState (fld w 6 5) (fld w 0 4)) else none
    | 4 => if fld w 4 2 = 0 ∧ fld w 11 5 = 0 then some (.sbCount (fld w 6 5) (fld w 0 4)) else none
    | _ => none
  | 2 =>
    match (fld w 16 7).toNat with
    | 0 => if fld w 0 6 = 0 then some (.slLoad (fld w 11 5) (fld w 6 5)) else none
    | _ => none
  | 3 =>
    match (fld w 16 7).toNat with
    | 0 => if fld w 4 12 = 0 then some (.peClear (fld w 16 2) (fld w 0 4)) else none
    | 1 => if fld w 4 12 = 0 then some (.peClear (fld w 16 2) (fld w 0 4)) else none
    | 2 => if fld w 4 12 = 0 then some (.peClear (fld w 16 2) (fld w 0 4)) else none
    | 3 => if fld w 4 12 = 0 then some (.peClear (fld w 16 2) (fld w 0 4)) else none
    | 4 => if fld w 4 12 = 0 then some (.peLoad (fld w 16 2) (fld w 0 4)) else none
    | 5 => if fld w 4 12 = 0 then some (.peLoad (fld w 16 2) (fld w 0 4)) else none
    | 6 => if fld w 4 12 = 0 then some (.peLoad (fld w 16 2) (fld w 0 4)) else none
    | 7 => if fld w 4 12 = 0 then some (.peLoad (fld w 16 2) (fld w 0 4)) else none
    | 8 => if fld w 4 12 = 0 then some (.peMma (fld w 16 2) (fld w 0 4)) else none
    | 9 => if fld w 4 12 = 0 then some (.peMma (fld w 16 2) (fld w 0 4)) else none
    | 10 => if fld w 4 12 = 0 then some (.peMma (fld w 16 2) (fld w 0 4)) else none
    | 11 => if fld w 4 12 = 0 then some (.peMma (fld w 16 2) (fld w 0 4)) else none
    | 12 => if fld w 4 12 = 0 then some (.peStore (fld w 16 2) (fld w 0 4)) else none
    | 13 => if fld w 4 12 = 0 then some (.peStore (fld w 16 2) (fld w 0 4)) else none
    | 14 => if fld w 4 12 = 0 then some (.peStore (fld w 16 2) (fld w 0 4)) else none
    | 15 => if fld w 4 12 = 0 then some (.peStore (fld w 16 2) (fld w 0 4)) else none
    | _ => none
  | 4 =>
    match (fld w 16 7).toNat with
    | 0 => if fld w 4 12 = 0 then some (.ceRun (fld w 0 4)) else none
    | _ => none
  | 5 =>
    match (fld w 16 7).toNat with
    | 0 => if fld w 0 16 = 0 then some (.gxState) else none
    | 1 => if fld w 0 16 = 0 then some (.gxPrim) else none
    | 2 => if fld w 0 16 = 0 then some (.gxFlush) else none
    | 3 => if fld w 0 16 = 0 then some (.gxEnd) else none
    | 4 => if fld w 5 1 = 0 then some (.gxCommit (fld w 11 5) (fld w 6 5) (fld w 0 5)) else none
    | _ => none
  | 6 =>
    match (fld w 16 7).toNat with
    | 0 => if fld w 0 16 = 0 then some (.bvBuild) else none
    | _ => none
  | _ => none

/-- Major 0x29. -/
def decMajor29 (w : BitVec 32) : Option Instr :=
  match (fld w 0 6).toNat with
  | 0 => if fld w 6 5 = 0 then some (.eregW (fld w 23 3) (fld w 16 7) (fld w 11 5)) else none
  | 1 => if fld w 11 5 = 0 then some (.eregR (fld w 23 3) (fld w 16 7) (fld w 6 5)) else none
  | _ => none

/-- Major 0x30. -/
def decMajor30 (w : BitVec 32) : Option Instr :=
  match (fld w 0 3).toNat with
  | 0 => if fld w 3 3 = 0 then some (.texSmp (fld w 21 5) (fld w 16 5) (fld w 11 5) (fld w 6 5)) else none
  | 1 => if fld w 3 3 = 0 then some (.texGrad (fld w 21 5) (fld w 16 5) (fld w 11 5) (fld w 6 5)) else none
  | 2 => if fld w 3 3 = 0 then some (.texFetch (fld w 21 5) (fld w 16 5) (fld w 11 5) (fld w 6 5)) else none
  | _ => none

/-- Major 0x31. -/
def decMajor31 (w : BitVec 32) : Option Instr :=
  match (fld w 0 3).toNat with
  | 0 => if fld w 3 3 = 0 then some (.rbox (fld w 21 5) (fld w 16 5) (fld w 11 5) (fld w 6 5)) else none
  | _ => none

/-- Major 0x32. -/
def decMajor32 (w : BitVec 32) : Option Instr :=
  match (fld w 0 3).toNat with
  | 0 => if fld w 3 3 = 0 then some (.rtri (fld w 21 5) (fld w 16 5) (fld w 11 5) (fld w 6 5)) else none
  | _ => none

/-- Major 0x33. -/
def decMajor33 (w : BitVec 32) : Option Instr :=
  match (fld w 0 3).toNat with
  | 0 => if fld w 3 3 = 0 ∧ fld w 9 2 = 0 then some (.vmm (fld w 21 5) (fld w 16 5) (fld w 11 5) (fld w 6 3)) else none
  | _ => none

/-- Major 0x38. -/
def decMajor38 (w : BitVec 32) : Option Instr :=
  match (fld w 12 4).toNat with
  | 0 => if fld w 16 5 = 0 then some (.crr (fld w 21 5) (fld w 0 12)) else none
  | 1 => some (.crw (fld w 21 5) (fld w 16 5) (fld w 0 12))
  | 2 => some (.crs (fld w 21 5) (fld w 16 5) (fld w 0 12))
  | 3 => some (.crc (fld w 21 5) (fld w 16 5) (fld w 0 12))
  | 4 => if fld w 0 12 = 0 ∧ fld w 16 10 = 0 then some (.sys) else none
  | 5 => if fld w 0 12 = 0 ∧ fld w 16 10 = 0 then some (.brk) else none
  | 6 => if fld w 0 12 = 0 ∧ fld w 16 10 = 0 then some (.tret) else none
  | _ => none

/-- The modifier prefix, major 0x3F (R85): bits 12:0 are reserved. -/
def decMajor3F (w : BitVec 32) : Option Instr :=
  if fld w 0 13 = 0 then
    some (.pfx (w.getLsbD 25) (w.getLsbD 24) (w.getLsbD 23) (w.getLsbD 22) (w.getLsbD 21) (w.getLsbD 20) (fld w 13 7))
  else none

/-- The major map (R65): every other major is unallocated. -/
def decodeRaw (w : BitVec 32) : Option Instr :=
  match (fld w 26 6).toNat with
  | 1 => decMajor01 w
  | 2 => decMajor02 w
  | 3 => decMajor03 w
  | 4 => decMajor04 w
  | 5 => decMajor05 w
  | 6 => decMajor06 w
  | 7 => decMajor07 w
  | 8 => decMajor08 w
  | 9 => decMajor09 w
  | 10 => decMajor0A w
  | 11 => decMajor0B w
  | 12 => decMajor0C w
  | 13 => decMajor0D w
  | 14 => decMajor0E w
  | 16 => decMajor10 w
  | 17 => decMajor11 w
  | 18 => decMajor12 w
  | 19 => decMajor13 w
  | 20 => decMajor14 w
  | 21 => decMajor15 w
  | 24 => decMajor18 w
  | 25 => decMajor19 w
  | 26 => decMajor1A w
  | 27 => decMajor1B w
  | 28 => decMajor1C w
  | 29 => decMajor1D w
  | 30 => decMajor1E w
  | 31 => decMajor1F w
  | 32 => decMajor20 w
  | 33 => decMajor21 w
  | 34 => decMajor22 w
  | 35 => decMajor23 w
  | 36 => decMajor24 w
  | 37 => decMajor25 w
  | 38 => decMajor26 w
  | 39 => decMajor27 w
  | 40 => decMajor28 w
  | 41 => decMajor29 w
  | 48 => decMajor30 w
  | 49 => decMajor31 w
  | 50 => decMajor32 w
  | 51 => decMajor33 w
  | 56 => decMajor38 w
  | 63 => decMajor3F w
  | _ => none

/-- The memory cores' stream instructions (R346): a field that a form does not use must be zero. -/
def decodeMcRaw (w : BitVec 32) : Option Instr :=
  match (fld w 26 6).toNat with
  | 1 => if fld w 0 14 = 0 then some (.mcAdd (fld w 22 4) (fld w 18 4) (fld w 14 4)) else none
  | 2 => if fld w 0 14 = 0 then some (.mcSub (fld w 22 4) (fld w 18 4) (fld w 14 4)) else none
  | 3 => if fld w 0 14 = 0 then some (.mcAnd (fld w 22 4) (fld w 18 4) (fld w 14 4)) else none
  | 4 => if fld w 0 14 = 0 then some (.mcOr (fld w 22 4) (fld w 18 4) (fld w 14 4)) else none
  | 5 => if fld w 0 14 = 0 then some (.mcXor (fld w 22 4) (fld w 18 4) (fld w 14 4)) else none
  | 6 => if fld w 0 14 = 0 then some (.mcShl (fld w 22 4) (fld w 18 4) (fld w 14 4)) else none
  | 7 => if fld w 0 14 = 0 then some (.mcShr (fld w 22 4) (fld w 18 4) (fld w 14 4)) else none
  | 8 => if fld w 0 14 = 0 then some (.mcMul (fld w 22 4) (fld w 18 4) (fld w 14 4)) else none
  | 9 => if fld w 14 4 = 0 then some (.mcAddi (fld w 22 4) (fld w 18 4) (fld w 0 14)) else none
  | 10 => if fld w 6 12 = 0 then some (.mcShli (fld w 22 4) (fld w 18 4) (fld w 0 6)) else none
  | 11 => some (.mcB (fld w 22 4) (fld w 18 4) (fld w 14 4) (fld w 0 14))
  | 12 => if fld w 0 14 = 0 then some (.mcRd (fld w 22 4) (fld w 18 4) (fld w 14 4)) else none
  | 13 => if fld w 0 14 = 0 then some (.mcWr (fld w 22 4) (fld w 18 4) (fld w 14 4)) else none
  | 14 => if fld w 14 4 = 0 then some (.mcLdb (fld w 22 4) (fld w 18 4) (fld w 0 14)) else none
  | 15 => if fld w 14 4 = 0 then some (.mcStb (fld w 22 4) (fld w 18 4) (fld w 0 14)) else none
  | 16 => if fld w 0 14 = 0 then some (.mcElem (fld w 22 4) (fld w 18 4) (fld w 14 4)) else none
  | 17 => if fld w 0 26 = 0 then some (.mcEnd) else none
  | _ => none

/-- The instruction that a core reads from a word, or none where the word is illegal by itself (R66, check 2). -/
def decode (w : BitVec 32) : Option Instr :=
  match decodeRaw w with
  | some i => if i.wf then some i else none
  | none => none

/-- The instruction that a memory core reads from a word of its program, or none (reason 1 of R347). -/
def decodeMc (w : BitVec 32) : Option Instr :=
  match decodeMcRaw w with
  | some i => if i.wf then some i else none
  | none => none

/-- The word at the head of a list of bytes, little-endian (R4, R62). -/
def wordOfBytes (b0 b1 b2 b3 : Byte) : BitVec 32 := b3 ++ b2 ++ b1 ++ b0

/-- The four bytes of a word as memory holds them (R4, R62). -/
def bytesOfWord (w : BitVec 32) : List Byte := [fld w 0 8, fld w 8 8, fld w 16 8, fld w 24 8]

/-- The instruction at the head of a list of bytes and the bytes after it; none where there are fewer than four bytes
or the word is refused. -/
def decodeBytes : List Byte → Option (Instr × List Byte)
  | b0 :: b1 :: b2 :: b3 :: rest => (decode (wordOfBytes b0 b1 b2 b3)).map fun i => (i, rest)
  | _ => none

/-- The word of an instruction, written from the formats of R63 and the allocations of R67 to R82, R85, R339, R341,
R346, R424, R429 and R431. A row of the table that has no word of its own has no encoding: 0, the illegal word. -/
def Instr.encode : Instr → BitVec 32
  | .addi d a i => BitVec.ofNat 32 (0x04000000 + d.toNat * 2097152 + a.toNat * 65536 + i.toNat)
  | .andi d a i => BitVec.ofNat 32 (0x04001000 + d.toNat * 2097152 + a.toNat * 65536 + i.toNat)
  | .ori d a i => BitVec.ofNat 32 (0x04002000 + d.toNat * 2097152 + a.toNat * 65536 + i.toNat)
  | .xori d a i => BitVec.ofNat 32 (0x04003000 + d.toNat * 2097152 + a.toNat * 65536 + i.toNat)
  | .clti d a i => BitVec.ofNat 32 (0x04004000 + d.toNat * 2097152 + a.toNat * 65536 + i.toNat)
  | .cltiu d a i => BitVec.ofNat 32 (0x04005000 + d.toNat * 2097152 + a.toNat * 65536 + i.toNat)
  | .slli d a s => BitVec.ofNat 32 (0x04006000 + d.toNat * 2097152 + a.toNat * 65536 + s.toNat)
  | .srli d a s => BitVec.ofNat 32 (0x04007000 + d.toNat * 2097152 + a.toNat * 65536 + s.toNat)
  | .srai d a s => BitVec.ofNat 32 (0x04008000 + d.toNat * 2097152 + a.toNat * 65536 + s.toNat)
  | .rori d a s => BitVec.ofNat 32 (0x04009000 + d.toNat * 2097152 + a.toNat * 65536 + s.toNat)
  | .add d a b => BitVec.ofNat 32 (0x08000000 + d.toNat * 2097152 + a.toNat * 65536 + b.toNat * 2048)
  | .sub d a b => BitVec.ofNat 32 (0x08000001 + d.toNat * 2097152 + a.toNat * 65536 + b.toNat * 2048)
  | .and d a b => BitVec.ofNat 32 (0x08000002 + d.toNat * 2097152 + a.toNat * 65536 + b.toNat * 2048)
  | .or d a b => BitVec.ofNat 32 (0x08000003 + d.toNat * 2097152 + a.toNat * 65536 + b.toNat * 2048)
  | .xor d a b => BitVec.ofNat 32 (0x08000004 + d.toNat * 2097152 + a.toNat * 65536 + b.toNat * 2048)
  | .andn d a b => BitVec.ofNat 32 (0x08000005 + d.toNat * 2097152 + a.toNat * 65536 + b.toNat * 2048)
  | .sll d a b => BitVec.ofNat 32 (0x08000006 + d.toNat * 2097152 + a.toNat * 65536 + b.toNat * 2048)
  | .srl d a b => BitVec.ofNat 32 (0x08000007 + d.toNat * 2097152 + a.toNat * 65536 + b.toNat * 2048)
  | .sra d a b => BitVec.ofNat 32 (0x08000008 + d.toNat * 2097152 + a.toNat * 65536 + b.toNat * 2048)
  | .ror d a b => BitVec.ofNat 32 (0x08000009 + d.toNat * 2097152 + a.toNat * 65536 + b.toNat * 2048)
  | .min d a b => BitVec.ofNat 32 (0x0800000A + d.toNat * 2097152 + a.toNat * 65536 + b.toNat * 2048)
  | .minu d a b => BitVec.ofNat 32 (0x0800000B + d.toNat * 2097152 + a.toNat * 65536 + b.toNat * 2048)
  | .max d a b => BitVec.ofNat 32 (0x0800000C + d.toNat * 2097152 + a.toNat * 65536 + b.toNat * 2048)
  | .maxu d a b => BitVec.ofNat 32 (0x0800000D + d.toNat * 2097152 + a.toNat * 65536 + b.toNat * 2048)
  | .mul d a b => BitVec.ofNat 32 (0x08000010 + d.toNat * 2097152 + a.toNat * 65536 + b.toNat * 2048)
  | .mulh d a b => BitVec.ofNat 32 (0x08000011 + d.toNat * 2097152 + a.toNat * 65536 + b.toNat * 2048)
  | .mulhu d a b => BitVec.ofNat 32 (0x08000012 + d.toNat * 2097152 + a.toNat * 65536 + b.toNat * 2048)
  | .mulhsu d a b => BitVec.ofNat 32 (0x08000013 + d.toNat * 2097152 + a.toNat * 65536 + b.toNat * 2048)
  | .div d a b => BitVec.ofNat 32 (0x08000014 + d.toNat * 2097152 + a.toNat * 65536 + b.toNat * 2048)
  | .divu d a b => BitVec.ofNat 32 (0x08000015 + d.toNat * 2097152 + a.toNat * 65536 + b.toNat * 2048)
  | .rem d a b => BitVec.ofNat 32 (0x08000016 + d.toNat * 2097152 + a.toNat * 65536 + b.toNat * 2048)
  | .remu d a b => BitVec.ofNat 32 (0x08000017 + d.toNat * 2097152 + a.toNat * 65536 + b.toNat * 2048)
  | .clz d a => BitVec.ofNat 32 (0x08000020 + d.toNat * 2097152 + a.toNat * 65536)
  | .ctz d a => BitVec.ofNat 32 (0x08000021 + d.toNat * 2097152 + a.toNat * 65536)
  | .popc d a => BitVec.ofNat 32 (0x08000022 + d.toNat * 2097152 + a.toNat * 65536)
  | .bswap d a => BitVec.ofNat 32 (0x08000023 + d.toNat * 2097152 + a.toNat * 65536)
  | .bilv2 d a b => BitVec.ofNat 32 (0x08000028 + d.toNat * 2097152 + a.toNat * 65536 + b.toNat * 2048)
  | .bilv3 d a b => BitVec.ofNat 32 (0x08000029 + d.toNat * 2097152 + a.toNat * 65536 + b.toNat * 2048)
  | .bext2 d a b => BitVec.ofNat 32 (0x0800002A + d.toNat * 2097152 + a.toNat * 65536 + b.toNat * 2048)
  | .bext3 d a b => BitVec.ofNat 32 (0x0800002B + d.toNat * 2097152 + a.toNat * 65536 + b.toNat * 2048)
  | .ceq d a b => BitVec.ofNat 32 (0x08000030 + d.toNat * 2097152 + a.toNat * 65536 + b.toNat * 2048)
  | .cne d a b => BitVec.ofNat 32 (0x08000031 + d.toNat * 2097152 + a.toNat * 65536 + b.toNat * 2048)
  | .clt d a b => BitVec.ofNat 32 (0x08000032 + d.toNat * 2097152 + a.toNat * 65536 + b.toNat * 2048)
  | .cge d a b => BitVec.ofNat 32 (0x08000033 + d.toNat * 2097152 + a.toNat * 65536 + b.toNat * 2048)
  | .cltu d a b => BitVec.ofNat 32 (0x08000034 + d.toNat * 2097152 + a.toNat * 65536 + b.toNat * 2048)
  | .cgeu d a b => BitVec.ofNat 32 (0x08000035 + d.toNat * 2097152 + a.toNat * 65536 + b.toNat * 2048)
  | .fadd d a b f r => BitVec.ofNat 32 (0x08000200 + d.toNat * 2097152 + a.toNat * 65536 + b.toNat * 2048 + f.toNat * 8 + r.toNat)
  | .fsub d a b f r => BitVec.ofNat 32 (0x08000220 + d.toNat * 2097152 + a.toNat * 65536 + b.toNat * 2048 + f.toNat * 8 + r.toNat)
  | .fmul d a b f r => BitVec.ofNat 32 (0x08000240 + d.toNat * 2097152 + a.toNat * 65536 + b.toNat * 2048 + f.toNat * 8 + r.toNat)
  | .fdiv d a b f r => BitVec.ofNat 32 (0x08000260 + d.toNat * 2097152 + a.toNat * 65536 + b.toNat * 2048 + f.toNat * 8 + r.toNat)
  | .fsqrt d a f r => BitVec.ofNat 32 (0x08000280 + d.toNat * 2097152 + a.toNat * 65536 + f.toNat * 8 + r.toNat)
  | .fmin d a b f => BitVec.ofNat 32 (0x080002A0 + d.toNat * 2097152 + a.toNat * 65536 + b.toNat * 2048 + f.toNat * 8)
  | .fmax d a b f => BitVec.ofNat 32 (0x080002C0 + d.toNat * 2097152 + a.toNat * 65536 + b.toNat * 2048 + f.toNat * 8)
  | .fmac d a b f r => BitVec.ofNat 32 (0x080002E0 + d.toNat * 2097152 + a.toNat * 65536 + b.toNat * 2048 + f.toNat * 8 + r.toNat)
  | .fnmac d a b f r => BitVec.ofNat 32 (0x08000300 + d.toNat * 2097152 + a.toNat * 65536 + b.toNat * 2048 + f.toNat * 8 + r.toNat)
  | .fceq d a b f => BitVec.ofNat 32 (0x08000320 + d.toNat * 2097152 + a.toNat * 65536 + b.toNat * 2048 + f.toNat * 8)
  | .fclt d a b f => BitVec.ofNat 32 (0x08000340 + d.toNat * 2097152 + a.toNat * 65536 + b.toNat * 2048 + f.toNat * 8)
  | .fcle d a b f => BitVec.ofNat 32 (0x08000360 + d.toNat * 2097152 + a.toNat * 65536 + b.toNat * 2048 + f.toNat * 8)
  | .fcvtf d a t f r => BitVec.ofNat 32 (0x08000380 + d.toNat * 2097152 + a.toNat * 65536 + t.toNat * 2048 + f.toNat * 8 + r.toNat)
  | .fcvtt d a t f r => BitVec.ofNat 32 (0x080003A0 + d.toNat * 2097152 + a.toNat * 65536 + t.toNat * 2048 + f.toNat * 8 + r.toNat)
  | .fclass d a f => BitVec.ofNat 32 (0x080003C0 + d.toNat * 2097152 + a.toNat * 65536 + f.toNat * 8)
  | .li d i => BitVec.ofNat 32 (0x0C000000 + d.toNat * 2097152 + i.toNat)
  | .lis d i => BitVec.ofNat 32 (0x0C010000 + d.toNat * 2097152 + i.toNat)
  | .pcseg d i => BitVec.ofNat 32 (0x0C020000 + d.toNat * 2097152 + i.toNat)
  | .ins16 d h i => BitVec.ofNat 32 (0x0C040000 + d.toNat * 2097152 + h.toNat * 65536 + i.toNat)
  | .beq a b o => BitVec.ofNat 32 (0x10000000 + a.toNat * 262144 + b.toNat * 8192 + o.toNat)
  | .bne a b o => BitVec.ofNat 32 (0x10800000 + a.toNat * 262144 + b.toNat * 8192 + o.toNat)
  | .blt a b o => BitVec.ofNat 32 (0x11000000 + a.toNat * 262144 + b.toNat * 8192 + o.toNat)
  | .bge a b o => BitVec.ofNat 32 (0x11800000 + a.toNat * 262144 + b.toNat * 8192 + o.toNat)
  | .bltu a b o => BitVec.ofNat 32 (0x12000000 + a.toNat * 262144 + b.toNat * 8192 + o.toNat)
  | .bgeu a b o => BitVec.ofNat 32 (0x12800000 + a.toNat * 262144 + b.toNat * 8192 + o.toNat)
  | .bfs k o => BitVec.ofNat 32 (0x13000000 + k.toNat * 262144 + o.toNat)
  | .bfc k o => BitVec.ofNat 32 (0x13800000 + k.toNat * 262144 + o.toNat)
  | .j o => BitVec.ofNat 32 (0x14000000 + o.toNat)
  | .jalr d a i => BitVec.ofNat 32 (0x18000000 + d.toNat * 2097152 + a.toNat * 65536 + i.toNat)
  | .lcount k a => BitVec.ofNat 32 (0x1C000001 + k.toNat * 2097152 + a.toNat * 65536)
  | .lstride k a r => BitVec.ofNat 32 (0x1C000002 + k.toNat * 2097152 + a.toNat * 65536 + r.toNat * 2048)
  | .ldB d a c i => BitVec.ofNat 32 (0x20000000 + d.toNat * 2097152 + a.toNat * 65536 + c.toNat * 4096 + i.toNat)
  | .ldBu d a c i => BitVec.ofNat 32 (0x24000000 + d.toNat * 2097152 + a.toNat * 65536 + c.toNat * 4096 + i.toNat)
  | .ldH d a c i => BitVec.ofNat 32 (0x28000000 + d.toNat * 2097152 + a.toNat * 65536 + c.toNat * 4096 + i.toNat)
  | .ldHu d a c i => BitVec.ofNat 32 (0x2C000000 + d.toNat * 2097152 + a.toNat * 65536 + c.toNat * 4096 + i.toNat)
  | .ldW d a c i => BitVec.ofNat 32 (0x30000000 + d.toNat * 2097152 + a.toNat * 65536 + c.toNat * 4096 + i.toNat)
  | .ldWu d a c i => BitVec.ofNat 32 (0x34000000 + d.toNat * 2097152 + a.toNat * 65536 + c.toNat * 4096 + i.toNat)
  | .ldD d a c i => BitVec.ofNat 32 (0x38000000 + d.toNat * 2097152 + a.toNat * 65536 + c.toNat * 4096 + i.toNat)
  | .stB s a c i => BitVec.ofNat 32 (0x40000000 + s.toNat * 2097152 + a.toNat * 65536 + c.toNat * 4096 + i.toNat)
  | .stH s a c i => BitVec.ofNat 32 (0x44000000 + s.toNat * 2097152 + a.toNat * 65536 + c.toNat * 4096 + i.toNat)
  | .stW s a c i => BitVec.ofNat 32 (0x48000000 + s.toNat * 2097152 + a.toNat * 65536 + c.toNat * 4096 + i.toNat)
  | .stD s a c i => BitVec.ofNat 32 (0x4C000000 + s.toNat * 2097152 + a.toNat * 65536 + c.toNat * 4096 + i.toNat)
  | .stq n a c o => BitVec.ofNat 32 (0x50000000 + n.toNat * 2097152 + a.toNat * 65536 + c.toNat * 4096 + o.toNat * 2)
  | .stqV n a c o => BitVec.ofNat 32 (0x50000001 + n.toNat * 2097152 + a.toNat * 65536 + c.toNat * 4096 + o.toNat * 2)
  | .amoLd d a q l s c w => BitVec.ofNat 32 (0x54000000 + d.toNat * 2097152 + a.toNat * 65536 + q.toNat * 1024 + l.toNat * 512 + s.toNat * 64 + c.toNat * 4 + w.toNat)
  | .amoSt d a q l s c w => BitVec.ofNat 32 (0x54000800 + d.toNat * 2097152 + a.toNat * 65536 + q.toNat * 1024 + l.toNat * 512 + s.toNat * 64 + c.toNat * 4 + w.toNat)
  | .amoSwap d a q l s c w => BitVec.ofNat 32 (0x54001000 + d.toNat * 2097152 + a.toNat * 65536 + q.toNat * 1024 + l.toNat * 512 + s.toNat * 64 + c.toNat * 4 + w.toNat)
  | .amoCas d a q l s c w => BitVec.ofNat 32 (0x54001800 + d.toNat * 2097152 + a.toNat * 65536 + q.toNat * 1024 + l.toNat * 512 + s.toNat * 64 + c.toNat * 4 + w.toNat)
  | .amoAdd d a q l s c w => BitVec.ofNat 32 (0x54002000 + d.toNat * 2097152 + a.toNat * 65536 + q.toNat * 1024 + l.toNat * 512 + s.toNat * 64 + c.toNat * 4 + w.toNat)
  | .amoAnd d a q l s c w => BitVec.ofNat 32 (0x54002800 + d.toNat * 2097152 + a.toNat * 65536 + q.toNat * 1024 + l.toNat * 512 + s.toNat * 64 + c.toNat * 4 + w.toNat)
  | .amoOr d a q l s c w => BitVec.ofNat 32 (0x54003000 + d.toNat * 2097152 + a.toNat * 65536 + q.toNat * 1024 + l.toNat * 512 + s.toNat * 64 + c.toNat * 4 + w.toNat)
  | .amoXor d a q l s c w => BitVec.ofNat 32 (0x54003800 + d.toNat * 2097152 + a.toNat * 65536 + q.toNat * 1024 + l.toNat * 512 + s.toNat * 64 + c.toNat * 4 + w.toNat)
  | .amoMin d a q l s c w => BitVec.ofNat 32 (0x54004000 + d.toNat * 2097152 + a.toNat * 65536 + q.toNat * 1024 + l.toNat * 512 + s.toNat * 64 + c.toNat * 4 + w.toNat)
  | .amoMax d a q l s c w => BitVec.ofNat 32 (0x54004800 + d.toNat * 2097152 + a.toNat * 65536 + q.toNat * 1024 + l.toNat * 512 + s.toNat * 64 + c.toNat * 4 + w.toNat)
  | .amoMinu d a q l s c w => BitVec.ofNat 32 (0x54005000 + d.toNat * 2097152 + a.toNat * 65536 + q.toNat * 1024 + l.toNat * 512 + s.toNat * 64 + c.toNat * 4 + w.toNat)
  | .amoMaxu d a q l s c w => BitVec.ofNat 32 (0x54005800 + d.toNat * 2097152 + a.toNat * 65536 + q.toNat * 1024 + l.toNat * 512 + s.toNat * 64 + c.toNat * 4 + w.toNat)
  | .vamoLd d a q l s c w => BitVec.ofNat 32 (0x7C000000 + d.toNat * 2097152 + a.toNat * 65536 + q.toNat * 1024 + l.toNat * 512 + s.toNat * 64 + c.toNat * 4 + w.toNat)
  | .vamoSt d a q l s c w => BitVec.ofNat 32 (0x7C000800 + d.toNat * 2097152 + a.toNat * 65536 + q.toNat * 1024 + l.toNat * 512 + s.toNat * 64 + c.toNat * 4 + w.toNat)
  | .vamoSwap d a q l s c w => BitVec.ofNat 32 (0x7C001000 + d.toNat * 2097152 + a.toNat * 65536 + q.toNat * 1024 + l.toNat * 512 + s.toNat * 64 + c.toNat * 4 + w.toNat)
  | .vamoCas d a q l s c w => BitVec.ofNat 32 (0x7C001800 + d.toNat * 2097152 + a.toNat * 65536 + q.toNat * 1024 + l.toNat * 512 + s.toNat * 64 + c.toNat * 4 + w.toNat)
  | .vamoAdd d a q l s c w => BitVec.ofNat 32 (0x7C002000 + d.toNat * 2097152 + a.toNat * 65536 + q.toNat * 1024 + l.toNat * 512 + s.toNat * 64 + c.toNat * 4 + w.toNat)
  | .vamoAnd d a q l s c w => BitVec.ofNat 32 (0x7C002800 + d.toNat * 2097152 + a.toNat * 65536 + q.toNat * 1024 + l.toNat * 512 + s.toNat * 64 + c.toNat * 4 + w.toNat)
  | .vamoOr d a q l s c w => BitVec.ofNat 32 (0x7C003000 + d.toNat * 2097152 + a.toNat * 65536 + q.toNat * 1024 + l.toNat * 512 + s.toNat * 64 + c.toNat * 4 + w.toNat)
  | .vamoXor d a q l s c w => BitVec.ofNat 32 (0x7C003800 + d.toNat * 2097152 + a.toNat * 65536 + q.toNat * 1024 + l.toNat * 512 + s.toNat * 64 + c.toNat * 4 + w.toNat)
  | .vamoMin d a q l s c w => BitVec.ofNat 32 (0x7C004000 + d.toNat * 2097152 + a.toNat * 65536 + q.toNat * 1024 + l.toNat * 512 + s.toNat * 64 + c.toNat * 4 + w.toNat)
  | .vamoMax d a q l s c w => BitVec.ofNat 32 (0x7C004800 + d.toNat * 2097152 + a.toNat * 65536 + q.toNat * 1024 + l.toNat * 512 + s.toNat * 64 + c.toNat * 4 + w.toNat)
  | .vamoMinu d a q l s c w => BitVec.ofNat 32 (0x7C005000 + d.toNat * 2097152 + a.toNat * 65536 + q.toNat * 1024 + l.toNat * 512 + s.toNat * 64 + c.toNat * 4 + w.toNat)
  | .vamoMaxu d a q l s c w => BitVec.ofNat 32 (0x7C005800 + d.toNat * 2097152 + a.toNat * 65536 + q.toNat * 1024 + l.toNat * 512 + s.toNat * 64 + c.toNat * 4 + w.toNat)
  | .vcfg d a g e => BitVec.ofNat 32 (0x60000000 + d.toNat * 2097152 + a.toNat * 65536 + g.toNat * 16384 + e.toNat * 2048)
  | .vtag d t => BitVec.ofNat 32 (0x60000001 + d.toNat * 2097152 + t.toNat * 2048)
  | .vgetx d a b => BitVec.ofNat 32 (0x60000002 + d.toNat * 2097152 + a.toNat * 65536 + b.toNat * 2048)
  | .vsetx d a b => BitVec.ofNat 32 (0x60000003 + d.toNat * 2097152 + a.toNat * 65536 + b.toNat * 2048)
  | .vbcast d a m => BitVec.ofNat 32 (0x60000004 + d.toNat * 2097152 + a.toNat * 65536 + m.toNat * 64)
  | .vid d m => BitVec.ofNat 32 (0x60000005 + d.toNat * 2097152 + m.toNat * 64)
  | .vadd d a b m r => BitVec.ofNat 32 (0x64000000 + d.toNat * 2097152 + a.toNat * 65536 + b.toNat * 2048 + m.toNat * 64 + r.toNat * 8)
  | .vsub d a b m r => BitVec.ofNat 32 (0x64000001 + d.toNat * 2097152 + a.toNat * 65536 + b.toNat * 2048 + m.toNat * 64 + r.toNat * 8)
  | .vmul d a b m r => BitVec.ofNat 32 (0x64000002 + d.toNat * 2097152 + a.toNat * 65536 + b.toNat * 2048 + m.toNat * 64 + r.toNat * 8)
  | .vmac d a b m r => BitVec.ofNat 32 (0x64000003 + d.toNat * 2097152 + a.toNat * 65536 + b.toNat * 2048 + m.toNat * 64 + r.toNat * 8)
  | .vmin d a b m r => BitVec.ofNat 32 (0x64000004 + d.toNat * 2097152 + a.toNat * 65536 + b.toNat * 2048 + m.toNat * 64 + r.toNat * 8)
  | .vmax d a b m r => BitVec.ofNat 32 (0x64000005 + d.toNat * 2097152 + a.toNat * 65536 + b.toNat * 2048 + m.toNat * 64 + r.toNat * 8)
  | .vdiv d a b m r => BitVec.ofNat 32 (0x64000006 + d.toNat * 2097152 + a.toNat * 65536 + b.toNat * 2048 + m.toNat * 64 + r.toNat * 8)
  | .vsqrt d a m r => BitVec.ofNat 32 (0x64000007 + d.toNat * 2097152 + a.toNat * 65536 + m.toNat * 64 + r.toNat * 8)
  | .vabs d a m r => BitVec.ofNat 32 (0x64000807 + d.toNat * 2097152 + a.toNat * 65536 + m.toNat * 64 + r.toNat * 8)
  | .vneg d a m r => BitVec.ofNat 32 (0x64001007 + d.toNat * 2097152 + a.toNat * 65536 + m.toNat * 64 + r.toNat * 8)
  | .vnot d a m r => BitVec.ofNat 32 (0x64001807 + d.toNat * 2097152 + a.toNat * 65536 + m.toNat * 64 + r.toNat * 8)
  | .vclz d a m r => BitVec.ofNat 32 (0x64002007 + d.toNat * 2097152 + a.toNat * 65536 + m.toNat * 64 + r.toNat * 8)
  | .vpopc d a m r => BitVec.ofNat 32 (0x64002807 + d.toNat * 2097152 + a.toNat * 65536 + m.toNat * 64 + r.toNat * 8)
  | .vbilv2 d a m r => BitVec.ofNat 32 (0x64003007 + d.toNat * 2097152 + a.toNat * 65536 + m.toNat * 64 + r.toNat * 8)
  | .vbext2 d a m r => BitVec.ofNat 32 (0x64003807 + d.toNat * 2097152 + a.toNat * 65536 + m.toNat * 64 + r.toNat * 8)
  | .vmov d a m r => BitVec.ofNat 32 (0x64004007 + d.toNat * 2097152 + a.toNat * 65536 + m.toNat * 64 + r.toNat * 8)
  | .vceq d a b m r => BitVec.ofNat 32 (0x68000000 + d.toNat * 2097152 + a.toNat * 65536 + b.toNat * 2048 + m.toNat * 64 + r.toNat * 8)
  | .vcne d a b m r => BitVec.ofNat 32 (0x68000001 + d.toNat * 2097152 + a.toNat * 65536 + b.toNat * 2048 + m.toNat * 64 + r.toNat * 8)
  | .vclt d a b m r => BitVec.ofNat 32 (0x68000002 + d.toNat * 2097152 + a.toNat * 65536 + b.toNat * 2048 + m.toNat * 64 + r.toNat * 8)
  | .vcle d a b m r => BitVec.ofNat 32 (0x68000003 + d.toNat * 2097152 + a.toNat * 65536 + b.toNat * 2048 + m.toNat * 64 + r.toNat * 8)
  | .vcun d a b m r => BitVec.ofNat 32 (0x68000004 + d.toNat * 2097152 + a.toNat * 65536 + b.toNat * 2048 + m.toNat * 64 + r.toNat * 8)
  | .vctst d a b m r => BitVec.ofNat 32 (0x68000005 + d.toNat * 2097152 + a.toNat * 65536 + b.toNat * 2048 + m.toNat * 64 + r.toNat * 8)
  | .vcvt d a t m s r => BitVec.ofNat 32 (0x6C000000 + d.toNat * 2097152 + a.toNat * 65536 + t.toNat * 2048 + m.toNat * 64 + s.toNat * 8 + r.toNat)
  | .vand d a b m r => BitVec.ofNat 32 (0x70000000 + d.toNat * 2097152 + a.toNat * 65536 + b.toNat * 2048 + m.toNat * 64 + r.toNat * 8)
  | .vor d a b m r => BitVec.ofNat 32 (0x70000001 + d.toNat * 2097152 + a.toNat * 65536 + b.toNat * 2048 + m.toNat * 64 + r.toNat * 8)
  | .vxor d a b m r => BitVec.ofNat 32 (0x70000002 + d.toNat * 2097152 + a.toNat * 65536 + b.toNat * 2048 + m.toNat * 64 + r.toNat * 8)
  | .vshl d a b m r => BitVec.ofNat 32 (0x70000003 + d.toNat * 2097152 + a.toNat * 65536 + b.toNat * 2048 + m.toNat * 64 + r.toNat * 8)
  | .vshr d a b m r => BitVec.ofNat 32 (0x70000004 + d.toNat * 2097152 + a.toNat * 65536 + b.toNat * 2048 + m.toNat * 64 + r.toNat * 8)
  | .vperm d a b m => BitVec.ofNat 32 (0x70000005 + d.toNat * 2097152 + a.toNat * 65536 + b.toNat * 2048 + m.toNat * 64)
  | .vslide d a k m => BitVec.ofNat 32 (0x70000006 + d.toNat * 2097152 + a.toNat * 65536 + k.toNat * 2048 + m.toNat * 64)
  | .vredsum d a m => BitVec.ofNat 32 (0x70000007 + d.toNat * 2097152 + a.toNat * 65536 + m.toNat * 64)
  | .vredmin d a m => BitVec.ofNat 32 (0x70000807 + d.toNat * 2097152 + a.toNat * 65536 + m.toNat * 64)
  | .vredmax d a m => BitVec.ofNat 32 (0x70001007 + d.toNat * 2097152 + a.toNat * 65536 + m.toNat * 64)
  | .vredand d a m => BitVec.ofNat 32 (0x70001807 + d.toNat * 2097152 + a.toNat * 65536 + m.toNat * 64)
  | .vredor d a m => BitVec.ofNat 32 (0x70002007 + d.toNat * 2097152 + a.toNat * 65536 + m.toNat * 64)
  | .vredxor d a m => BitVec.ofNat 32 (0x70002807 + d.toNat * 2097152 + a.toNat * 65536 + m.toNat * 64)
  | .vmatch d a m => BitVec.ofNat 32 (0x70003007 + d.toNat * 2097152 + a.toNat * 65536 + m.toNat * 64)
  | .vexpand d a m => BitVec.ofNat 32 (0x70003807 + d.toNat * 2097152 + a.toNat * 65536 + m.toNat * 64)
  | .vcompress d a m => BitVec.ofNat 32 (0x70004007 + d.toNat * 2097152 + a.toNat * 65536 + m.toNat * 64)
  | .vunpack d a m => BitVec.ofNat 32 (0x70004807 + d.toNat * 2097152 + a.toNat * 65536 + m.toNat * 64)
  | .vrev d a m => BitVec.ofNat 32 (0x70005007 + d.toNat * 2097152 + a.toNat * 65536 + m.toNat * 64)
  | .vld d a m c => BitVec.ofNat 32 (0x74000000 + d.toNat * 2097152 + a.toNat * 65536 + m.toNat * 64 + c.toNat * 4)
  | .vlds d a b m c => BitVec.ofNat 32 (0x74000001 + d.toNat * 2097152 + a.toNat * 65536 + b.toNat * 2048 + m.toNat * 64 + c.toNat * 4)
  | .vldx d a b m c => BitVec.ofNat 32 (0x74000002 + d.toNat * 2097152 + a.toNat * 65536 + b.toNat * 2048 + m.toNat * 64 + c.toNat * 4)
  | .vldl d a b m c => BitVec.ofNat 32 (0x74000003 + d.toNat * 2097152 + a.toNat * 65536 + b.toNat * 2048 + m.toNat * 64 + c.toNat * 4)
  | .vst d a m c => BitVec.ofNat 32 (0x78000000 + d.toNat * 2097152 + a.toNat * 65536 + m.toNat * 64 + c.toNat * 4)
  | .vsts d a b m c => BitVec.ofNat 32 (0x78000001 + d.toNat * 2097152 + a.toNat * 65536 + b.toNat * 2048 + m.toNat * 64 + c.toNat * 4)
  | .vstx d a b m c => BitVec.ofNat 32 (0x78000002 + d.toNat * 2097152 + a.toNat * 65536 + b.toNat * 2048 + m.toNat * 64 + c.toNat * 4)
  | .vstl d a b m c => BitVec.ofNat 32 (0x78000003 + d.toNat * 2097152 + a.toNat * 65536 + b.toNat * 2048 + m.toNat * 64 + c.toNat * 4)
  | .emit k a q => BitVec.ofNat 32 (0x80000000 + k.toNat * 2097152 + a.toNat * 65536 + q.toNat * 2048)
  | .launch n a i => BitVec.ofNat 32 (0x80000001 + n.toNat * 2097152 + a.toNat * 65536 + i.toNat * 2048)
  | .suspend k a q => BitVec.ofNat 32 (0x80000002 + k.toNat * 2097152 + a.toNat * 65536 + q.toNat * 2048)
  | .yield k => BitVec.ofNat 32 (0x80000003 + k.toNat * 65536)
  | .penq d a t => BitVec.ofNat 32 (0x80000005 + d.toNat * 2097152 + a.toNat * 65536 + t.toNat * 2048)
  | .waita d a b w k => BitVec.ofNat 32 (0x84000000 + d.toNat * 2097152 + a.toNat * 65536 + b.toNat * 2048 + w.toNat * 8 + k.toNat)
  | .vwait m a b w k => BitVec.ofNat 32 (0x84000010 + m.toNat * 2097152 + a.toNat * 65536 + b.toNat * 2048 + w.toNat * 8 + k.toNat)
  | .barArrive d b => BitVec.ofNat 32 (0x88000000 + d.toNat * 2097152 + b.toNat * 2048)
  | .barWait a b => BitVec.ofNat 32 (0x88000001 + a.toNat * 65536 + b.toNat * 2048)
  | .barSync b => BitVec.ofNat 32 (0x88000002 + b.toNat * 2048)
  | .lkstall d k => BitVec.ofNat 32 (0x8C000000 + d.toNat * 2097152 + k.toNat * 2048)
  | .lkstallc d k => BitVec.ofNat 32 (0x8C000001 + d.toNat * 2097152 + k.toNat * 2048)
  | .lkcount d k => BitVec.ofNat 32 (0x8C000002 + d.toNat * 2097152 + k.toNat * 2048)
  | .fence a s => BitVec.ofNat 32 (0x90000000 + a.toNat * 65536 + s.toNat)
  | .fenceAll s => BitVec.ofNat 32 (0x90000008 + s.toNat)
  | .cellPropose d a v => BitVec.ofNat 32 (0x94000000 + d.toNat * 2097152 + a.toNat * 65536 + v.toNat * 2048)
  | .cellRead d a => BitVec.ofNat 32 (0x94000001 + d.toNat * 2097152 + a.toNat * 65536)
  | .cellRecycle d a => BitVec.ofNat 32 (0x94000002 + d.toNat * 2097152 + a.toNat * 65536)
  | .shapeSeal d a => BitVec.ofNat 32 (0x98000000 + d.toNat * 2097152 + a.toNat * 65536)
  | .shapeFence d a => BitVec.ofNat 32 (0x98000001 + d.toNat * 2097152 + a.toNat * 65536)
  | .shapeDrop d a => BitVec.ofNat 32 (0x98000002 + d.toNat * 2097152 + a.toNat * 65536)
  | .crange d a => BitVec.ofNat 32 (0x9C000000 + d.toNat * 2097152 + a.toNat * 65536)
  | .crangeDrop d a => BitVec.ofNat 32 (0x9C000001 + d.toNat * 2097152 + a.toNat * 65536)
  | .vrred v a k m => BitVec.ofNat 32 (0x9C000002 + v.toNat * 2097152 + a.toNat * 65536 + k.toNat * 2048 + m.toNat * 64)
  | .stBits d a f => BitVec.ofNat 32 (0x9C000003 + d.toNat * 2097152 + a.toNat * 65536 + f.toNat * 2048)
  | .mqCopy a b => BitVec.ofNat 32 (0xA0000000 + a.toNat * 2048 + b.toNat * 64)
  | .sbArm n b => BitVec.ofNat 32 (0xA0800000 + n.toNat * 2048 + b.toNat)
  | .sbWait b => BitVec.ofNat 32 (0xA0810000 + b.toNat)
  | .sbReset b => BitVec.ofNat 32 (0xA0820000 + b.toNat)
  | .sbState d b => BitVec.ofNat 32 (0xA0830000 + d.toNat * 64 + b.toNat)
  | .sbCount d b => BitVec.ofNat 32 (0xA0840000 + d.toNat * 64 + b.toNat)
  | .slLoad i v => BitVec.ofNat 32 (0xA1000000 + i.toNat * 2048 + v.toNat * 64)
  | .peClear t q => BitVec.ofNat 32 (0xA1800000 + t.toNat * 65536 + q.toNat)
  | .peLoad t q => BitVec.ofNat 32 (0xA1840000 + t.toNat * 65536 + q.toNat)
  | .peMma t q => BitVec.ofNat 32 (0xA1880000 + t.toNat * 65536 + q.toNat)
  | .peStore t q => BitVec.ofNat 32 (0xA18C0000 + t.toNat * 65536 + q.toNat)
  | .ceRun q => BitVec.ofNat 32 (0xA2000000 + q.toNat)
  | .gxCommit a b v => BitVec.ofNat 32 (0xA2840000 + a.toNat * 2048 + b.toNat * 64 + v.toNat)
  | .eregW e i a => BitVec.ofNat 32 (0xA4000000 + e.toNat * 8388608 + i.toNat * 65536 + a.toNat * 2048)
  | .eregR e i d => BitVec.ofNat 32 (0xA4000001 + e.toNat * 8388608 + i.toNat * 65536 + d.toNat * 64)
  | .texSmp d a t m => BitVec.ofNat 32 (0xC0000000 + d.toNat * 2097152 + a.toNat * 65536 + t.toNat * 2048 + m.toNat * 64)
  | .texGrad d a t m => BitVec.ofNat 32 (0xC0000001 + d.toNat * 2097152 + a.toNat * 65536 + t.toNat * 2048 + m.toNat * 64)
  | .texFetch d a t m => BitVec.ofNat 32 (0xC0000002 + d.toNat * 2097152 + a.toNat * 65536 + t.toNat * 2048 + m.toNat * 64)
  | .rbox d a b m => BitVec.ofNat 32 (0xC4000000 + d.toNat * 2097152 + a.toNat * 65536 + b.toNat * 2048 + m.toNat * 64)
  | .rtri d a b m => BitVec.ofNat 32 (0xC8000000 + d.toNat * 2097152 + a.toNat * 65536 + b.toNat * 2048 + m.toNat * 64)
  | .vmm d a b k => BitVec.ofNat 32 (0xCC000000 + d.toNat * 2097152 + a.toNat * 65536 + b.toNat * 2048 + k.toNat * 64)
  | .crr d n => BitVec.ofNat 32 (0xE0000000 + d.toNat * 2097152 + n.toNat)
  | .crw d a n => BitVec.ofNat 32 (0xE0001000 + d.toNat * 2097152 + a.toNat * 65536 + n.toNat)
  | .crs d a n => BitVec.ofNat 32 (0xE0002000 + d.toNat * 2097152 + a.toNat * 65536 + n.toNat)
  | .crc d a n => BitVec.ofNat 32 (0xE0003000 + d.toNat * 2097152 + a.toNat * 65536 + n.toNat)
  | .pfx sat clamp nega negb absa absb scale => BitVec.ofNat 32 (0xFC000000 + b2n sat * 33554432 + b2n clamp * 16777216
      + b2n nega * 8388608 + b2n negb * 4194304 + b2n absa * 2097152 + b2n absb * 1048576 + scale.toNat * 8192)
  | .mcAdd a b c => BitVec.ofNat 32 (0x04000000 + a.toNat * 4194304 + b.toNat * 262144 + c.toNat * 16384)
  | .mcSub a b c => BitVec.ofNat 32 (0x08000000 + a.toNat * 4194304 + b.toNat * 262144 + c.toNat * 16384)
  | .mcAnd a b c => BitVec.ofNat 32 (0x0C000000 + a.toNat * 4194304 + b.toNat * 262144 + c.toNat * 16384)
  | .mcOr a b c => BitVec.ofNat 32 (0x10000000 + a.toNat * 4194304 + b.toNat * 262144 + c.toNat * 16384)
  | .mcXor a b c => BitVec.ofNat 32 (0x14000000 + a.toNat * 4194304 + b.toNat * 262144 + c.toNat * 16384)
  | .mcShl a b c => BitVec.ofNat 32 (0x18000000 + a.toNat * 4194304 + b.toNat * 262144 + c.toNat * 16384)
  | .mcShr a b c => BitVec.ofNat 32 (0x1C000000 + a.toNat * 4194304 + b.toNat * 262144 + c.toNat * 16384)
  | .mcMul a b c => BitVec.ofNat 32 (0x20000000 + a.toNat * 4194304 + b.toNat * 262144 + c.toNat * 16384)
  | .mcAddi a b i => BitVec.ofNat 32 (0x24000000 + a.toNat * 4194304 + b.toNat * 262144 + i.toNat)
  | .mcShli a b s => BitVec.ofNat 32 (0x28000000 + a.toNat * 4194304 + b.toNat * 262144 + s.toNat)
  | .mcB k b c i => BitVec.ofNat 32 (0x2C000000 + k.toNat * 4194304 + b.toNat * 262144 + c.toNat * 16384 + i.toNat)
  | .mcRd a b c => BitVec.ofNat 32 (0x30000000 + a.toNat * 4194304 + b.toNat * 262144 + c.toNat * 16384)
  | .mcWr a b c => BitVec.ofNat 32 (0x34000000 + a.toNat * 4194304 + b.toNat * 262144 + c.toNat * 16384)
  | .mcLdb a b i => BitVec.ofNat 32 (0x38000000 + a.toNat * 4194304 + b.toNat * 262144 + i.toNat)
  | .mcStb a b i => BitVec.ofNat 32 (0x3C000000 + a.toNat * 4194304 + b.toNat * 262144 + i.toNat)
  | .mcElem a b c => BitVec.ofNat 32 (0x40000000 + a.toNat * 4194304 + b.toNat * 262144 + c.toNat * 16384)
  | .loop => BitVec.ofNat 32 (0x1C000000)
  | .done => BitVec.ofNat 32 (0x80000004)
  | .penqReply => 0
  | .penqTimeout => 0
  | .waitWake => 0
  | .barWaitResume => 0
  | .linkParkedIssue => 0
  | .cellRecycleReleaseDone => 0
  | .sbWaitResume => 0
  | .slLoadRow => 0
  | .peMmaStep => 0
  | .peTileStep => 0
  | .chainStep => 0
  | .gxState => BitVec.ofNat 32 (0xA2800000)
  | .gxPrim => BitVec.ofNat 32 (0xA2810000)
  | .binnerRecord => 0
  | .gxFlush => BitVec.ofNat 32 (0xA2820000)
  | .gxEnd => BitVec.ofNat 32 (0xA2830000)
  | .tileReplay => 0
  | .resolverTileStart => 0
  | .visibilityFinal => 0
  | .translucentTaskEmit => 0
  | .commitPerform => 0
  | .tileSlotRelease => 0
  | .bvBuild => BitVec.ofNat 32 (0xA3000000)
  | .buildItem => 0
  | .engineCommandComplete => 0
  | .engineFault => 0
  | .mqCopyPiece => 0
  | .mcInvocation => 0
  | .sys => BitVec.ofNat 32 (0xE0004000)
  | .brk => BitVec.ofNat 32 (0xE0005000)
  | .tret => BitVec.ofNat 32 (0xE0006000)
  | .vlmaxpWrite => 0
  | .fresRetry => 0
  | .fresReissue => 0
  | .fresKill => 0
  | .fresExtend => 0
  | .rctlResume => 0
  | .rctlSuspend => 0
  | .rctlKill => 0
  | .qsave => 0
  | .tlbinvPage => 0
  | .tlbinvAll => 0
  | .mcEnd => BitVec.ofNat 32 (0x44000000)
  | .dispatchGrant => 0
  | .pickUp => 0
  | .slotRetirement => 0
  | .queueRoomResume => 0
  | .taskLimit => 0
  | .stageGovernorEvaluation => 0
  | .balancerCycle => 0
  | .migrationCommand => 0
  | .windowEnqueue => 0
  | .clktsTick => 0
  | .localTrapEntry => 0
  | .faultDomainDelivery => 0
  | .faultRecordEnqueue => 0
  | .pageWalk => 0
  | .sliceEviction => 0
  | .lineFill => 0
  | .lineWriteback => 0
  | .homeRead => 0
  | .homeUpgrade => 0
  | .sliceInvalidation => 0
  | .dtRiseReport => 0
  | .seamFlitReplay => 0
  | .seamLoss => 0
  | .snpinv => 0
  | .snpdata => 0
  | .snpcur => 0
  | .memrd => 0
  | .memwr => 0
  | .meminv => 0
  | .bisnpResponse => 0
  | .peerAccessPacket => 0
  | .remoteReducePacket => 0
  | .dieIdle => 0
  | .dieWake => 0
  | .clockLevelStep => 0
  | .moduleReset => 0
  | .boot => 0
  | .imageLoad => 0
  | .regionCreate => 0
  | .regionKill => 0
  | .queueBind => 0
  | .checkpoint => 0
  | .restore => 0
  | .attest => 0
  | .telemetry => 0
  | .engineReset => 0
  | .shutdown => 0
  | .nargWrite => 0
  | .ncmdWriteWhileBusy => 0
  | .unknownCommandCode => 0
  | .proxyHomeLineFill => 0
  | .acknowledgementReturn => 0
  | .packetForwarding => 0
  | .powerRefresh => 0

/-- The host's question: the instruction that the decoder reads from the word whose bits are `w`, laid out as memory
holds it. A core's word and a memory core's word have one width and meet in one numbering: a word that a core refuses is
read as a memory core reads it (log 40). -/
def decodeTableWord (_nbits w : Nat) : Option Instr :=
  match decodeBytes (bytesOfWord (BitVec.ofNat 32 w)) with
  | some p => some p.1
  | none => decodeMc (BitVec.ofNat 32 w)

end Sys2Proof
end

