-- ==== Sys2Proof/Machine/State.lean ====
section
/-! DEFINITION. The state of the module as plain data, and the state after reset. One slot and its core are held in
place (`State.slot`, `State.core`: the slot whose turn it is); every other slot and core that differs from its reset
value is listed. A list indexed by a number holds only the entries that differ from their reset value, so an absent
entry reads as that value. Field docstrings name the rule of the spec that gives the item. -/

namespace Sys2Proof.Machine

/-! ### Small vocabularies -/

/-- The three kinds of translated access that R373 and R385 tell apart. -/
inductive AccessKind where
  /-- an instruction fetch -/
  | fetch
  /-- a read, a wait, an amo.ld or an engine read -/
  | read
  /-- a write, any other atomic or an engine write -/
  | write
deriving DecidableEq, Repr, Inhabited

/-- What a trap carries (R373, R376): the values that local entry would write. -/
structure TrapInfo where
  /-- the cause code of R373 -/
  cause : BitVec 16 := 0
  /-- the value for TVAL -/
  tval : Dword := 0
  /-- the value for TXVAL -/
  txval : Dword := 0
  /-- TCAUSE.ENG: 0 the slot itself, e + 1 engine code e -/
  eng : BitVec 4 := 0
  /-- TCAUSE.EV and ELEM: the restart element of R377 -/
  elem : Option (BitVec 16) := none
  /-- TCAUSE.ARR: the arrival of a bar.sync is counted (R191) -/
  arr : Bool := false
  /-- the token of that arrival (R191, R379) -/
  token : BitVec 32 := 0
  /-- the trap is taken after the instruction (sys and brk, R393) -/
  after : Bool := false
deriving DecidableEq, Repr, Inhabited

/-- The states of a slot (R159, R379). -/
inductive SlotSt where
  | free | starting | running | parked | retiring | held | faulted
deriving DecidableEq, Repr, Inhabited

/-- A 64-byte continuation record (R157), as eight little-endian doublewords in byte order. -/
structure Rec where
  /-- bytes 0 to 7: RESUME, TEAM, LM, PC -/
  w0 : Dword := 0
  /-- bytes 8 to 15: PRIO, DEPTH, QUEUE, REGION -/
  w1 : Dword := 0
  /-- bytes 16 to 23 -/
  key : Dword := 0
  /-- bytes 24 to 31 -/
  arg0 : Dword := 0
  /-- bytes 32 to 39 -/
  arg1 : Dword := 0
  /-- bytes 40 to 47 -/
  arg2 : Dword := 0
  /-- bytes 48 to 55 -/
  arg3 : Dword := 0
  /-- bytes 56 to 63 -/
  fp : Dword := 0
deriving DecidableEq, Repr, Inhabited

/-- Why a slot is PARKED (R159), with what the hardware keeps for its wake-up. -/
inductive Park where
  /-- not parked -/
  | none
  /-- waita or vwait: the wake-up rereads (R188) -/
  | wait
  /-- bar.wait or bar.sync on barrier `b` for the phase after `tok`; `sync`: the arrival of a bar.sync is counted -/
  | barrier (b : BitVec 4) (tok : BitVec 32) (sync : Bool)
  /-- a link that is empty or full (R185): the links popped, one entry a word, and the links pushed -/
  | link (pops pushes : List (Fin 4))
  /-- sb.wait on stage barrier `b` (R284) -/
  | stage (b : BitVec 4)
  /-- the barrier waited on has entered DONE, or OVERSHOOT with this GOT (R284) -/
  | stageGo (done : Bool) (got : BitVec 32)
  /-- an enqueue to a full queue (R176) -/
  | queue
  /-- a penq that was sent at cycle `at_` and awaits its reply; `own`: to the own module (R432) -/
  | penq (at_ : Nat) (own : Bool)
deriving DecidableEq, Repr, Inhabited

/-! ### Commands -/

/-- A range of an interlock entry, `lo` to `hi` − 1. `loc`: of local memory keys; else of addresses (R276). -/
structure Seg where
  lo : Nat
  hi : Nat
  loc : Bool
deriving DecidableEq, Repr, Inhabited

/-- An interlock entry (R276): its byte range, as the parts of the memories that the range reaches, and its write bit. -/
structure Lock where
  segs : List Seg
  wr : Bool
deriving DecidableEq, Repr, Inhabited

/-- A command that an engine holds: queued, running or stopped (R273, R277, R382), with what it captured at issue. -/
structure Cmd where
  /-- issue order in the module -/
  id : Nat
  slot : SlotNo
  eng : BitVec 3
  word : BitVec 32
  /-- the engine's registers as captured -/
  er : Vector Dword 64 := Vector.replicate 64 0
  /-- sc0 to sc7 as captured -/
  sc : Vector Dword 8 := Vector.replicate 8 0
  srseed : Dword := 0
  frm : BitVec 3 := 0
  /-- the window descriptors (R210) as captured -/
  wfmt : Vector Dword 16 := Vector.replicate 16 0
  ew : BitVec 3 := 0
  grp : BitVec 2 := 0
  vl : Nat := 0
  /-- captured window descriptors of a plane command (R287) -/
  wa : Dword := 0
  wb : Dword := 0
  /-- captured scalar operands -/
  a : Dword := 0
  b : Dword := 0
  /-- captured vector elements of a commit (R326); what a chain step that has started read of its step word and its table
  entry (R307) -/
  data : List Dword := []
  /-- the next step, piece, record or element -/
  pos : Nat := 0
  /-- a second position -/
  aux : Nat := 0
  /-- bits delivered so far by the pieces of a copy (R285) -/
  bits : Nat := 0
  /-- the pieces of a copy that have been performed, by their granules (R282) -/
  served : List (Option Int) := []
  /-- the source elements of a copy whose source and destination overlap, as they stood before it began (R275); the
  batches that a gx.end waits for; the inputs of a build; what a plane-engine command has read of its operands, of C or of
  its tile for a step that is still to be performed (R275, R277) -/
  snap : List Nat := []
  locks : List Lock := []
  /-- every access has been performed: it only awaits its completion (R274) -/
  finished : Bool := false
  stopped : Bool := false
deriving DecidableEq, Repr, Inhabited

/-! ### The slot -/

/-- A fence that has issued and has not completed (R254): what it waits for, and what waits for it. -/
structure PendFence where
  /-- the slot's engine commands that the before-mask holds -/
  cmds : List Nat
  /-- it waits for the slot's peer stores: scope SYSTEM -/
  peer : Bool
  /-- it waits for the slot's remote-reduce packets within the module -/
  packets : Bool
  /-- the after-mask -/
  after : BitVec 16
  scope : BitVec 3
  /-- fence.all, which discards instructions fetched ahead (R452) -/
  all : Bool
  /-- the number of the next command when it issued: the commands from it on come after the fence -/
  next : Nat
deriving DecidableEq, Repr, Inhabited

/-- A vector register (R9, R10). -/
structure VReg where
  data : BitVec 2048 := 0
  /-- the element tag; i64 at reset -/
  tag : BitVec 5 := 13
  /-- the progress index: none is complete (R26) -/
  prog : Option Nat := none
  /-- the chaining read pointer: none is IDLE (R9, R278) -/
  rdp : Option Nat := none
deriving DecidableEq, Repr, Inhabited

/-- The resume point of a FAULTED slot (R379). -/
structure Resume where
  rpc : BitVec 56 := 0
  loop : Bool := false
  bpos : BitVec 6 := 0
  ev : Bool := false
  elem : BitVec 16 := 0
  arr : Bool := false
  token : BitVec 32 := 0
deriving DecidableEq, Repr, Inhabited

/-- A pending engine fault of a slot (R382). -/
structure EngFault where
  eng : BitVec 3
  info : TrapInfo
deriving DecidableEq, Repr, Inhabited

/-- The architectural state of one thread slot (R7) and what the hardware holds for it. -/
structure Slot where
  /-- s0 to s31 (R7, R8); entry 0 is never written -/
  x : Vector Dword 32 := Vector.replicate 32 0
  /-- v0 to v31 (R7, R9) -/
  v : Vector VReg 32 := Vector.replicate 32 {}
  /-- the program counter (R7) -/
  pc : BitVec 56 := 0
  /-- where the slot goes after the instruction that is executing: the model's own, set by the step -/
  npc : BitVec 56 := 0
  /-- the instruction in `ir` has not completed and is to be tried again, without a new fetch: the model's own -/
  hold : Bool := false
  /-- the word that is executing (TVAL of ILLEGAL and others, R373): the model's own latch -/
  ir : BitVec 32 := 0
  /-- the modifiers of a prefix pair, as the prefix word (R85): the model's own latch, 0 outside a pair -/
  pfx : BitVec 32 := 0
  /-- STATUS.LM (R13) -/
  lm : Bool := false
  /-- STATUS.LOOP (R13) -/
  loop : Bool := false
  /-- STATUS.MODE (R13) -/
  mode : BitVec 2 := 2
  /-- VTYPE.ILL (R14) -/
  vill : Bool := true
  /-- VTYPE.REQ -/
  vreq : BitVec 5 := 0
  /-- VTYPE.GRP -/
  vgrp : BitVec 2 := 0
  /-- VTYPE.EW -/
  vew : BitVec 3 := 0
  /-- VL (R18) -/
  vl : BitVec 15 := 0
  /-- FLAGS: ALL, SOME, NONE from bit 2 down (R19) -/
  flags : BitVec 3 := 5
  /-- FFLAGS: NV, DZ, OF, UF, NX from bit 4 down (R20) -/
  fflags : BitVec 5 := 0
  /-- FRM (R20) -/
  frm : BitVec 3 := 0
  /-- SRSEED (R48) -/
  srseed : Dword := 0
  /-- FOOTH.BYTES (R208) -/
  footh : BitVec 32 := 0x10000
  /-- WFMT0 to WFMT15 (R210); WFMT0 is fixed at 0 -/
  wfmt : Vector Dword 16 := Vector.replicate 16 0
  /-- TASKLIM.LIMIT (R171) -/
  tasklim : BitVec 48 := 0
  /-- TINFO (R170) -/
  tinfo : Dword := 0
  /-- TKEY (R170) -/
  tkey : Dword := 0
  /-- TEAM (R170) -/
  team : Dword := 0
  /-- TASKCYC (R170) -/
  taskcyc : Dword := 0
  /-- EPC.ADDR (R376) -/
  epc : BitVec 56 := 0
  /-- TCAUSE (R376) -/
  tcause : Dword := 0
  /-- TVAL (R376) -/
  tval : Dword := 0
  /-- TVEC (R376) -/
  tvec : Dword := 0
  /-- TXVAL (R376) -/
  txval : Dword := 0
  /-- LCNT0 to LCNT5 (R30) -/
  lcnt : Vector Dword 6 := Vector.replicate 6 1
  /-- LSTR0 to LSTR5 (R30) -/
  lstr : Vector Dword 6 := Vector.replicate 6 0
  /-- LFIRST (R30) -/
  lfirst : Dword := 0
  /-- LLAST (R30) -/
  llast : Dword := 0
  /-- LCTL (R30): LEVELS 1, LEN 1 -/
  lctl : Dword := 0x101
  /-- the loop body captured by the last loop (R117) -/
  body : List (BitVec 32) := []
  /-- the address of the first body word (R117) -/
  bodyPc : BitVec 56 := 0
  /-- the position in the body of the instruction that is executing (R31) -/
  bpos : BitVec 6 := 0
  /-- the engine registers of the seven engines (R270): engine code, then index -/
  er : Vector (Vector Dword 64) 7 := Vector.replicate 7 (Vector.replicate 64 0)
  /-- the lines of code, by line number, whose instructions the slot may have fetched ahead of their issue since
  its pick-up or its last fence.all (R452) -/
  ahead : List (Nat × BitVec 512) := []
  /-- the state of the slot (R159) -/
  st : SlotSt := .free
  /-- why it is PARKED -/
  park : Park := .none
  /-- the record that was granted to a STARTING slot, or that a parked or retiring slot is to enqueue -/
  recd : Option Rec := none
  /-- the queue the pending record goes to -/
  recQ : BitVec 16 := 0
  /-- the register sN of a launch that waits for room; its record is the template (R196) -/
  launch : Option RegNo := none
  /-- the PC of the record that the occupant started from (R422) -/
  recPc : BitVec 56 := 0
  /-- the task leaves the slot when its pending record is enqueued: suspend, yield (R195, R198) -/
  leaving : Bool := false
  /-- the resume point of a FAULTED slot (R379) -/
  resume : Resume := {}
  /-- SEQ, the faults of the slot modulo 2^16 (R379): core state that no pick-up resets -/
  seq : BitVec 16 := 0
  /-- the fault record that waits for its queue (R380), and the region whose fault domain is next to be tried -/
  faultRec : Option Rec := none
  /-- that region -/
  faultReg : BitVec 32 := 0
  /-- the element at which the next vector instruction resumes (R377, R378) -/
  restart : Option (BitVec 16) := none
  /-- the token of a bar.sync whose arrival is counted and that resumes with its wait alone (R378) -/
  arrTok : Option (BitVec 32) := none
  /-- pending engine faults (R382) -/
  efaults : List EngFault := []
  /-- peer stores and packets to peers that are not yet acknowledged (R413, R414) -/
  unacked : Nat := 0
  /-- remote-reduce packets within the module that are not yet acknowledged (R430) -/
  packets : Nat := 0
  /-- fences that have issued and have not completed (R254) -/
  fences : List PendFence := []
  /-- it holds words or entries of links for the instruction in `ir`, which has issued (R203) -/
  linked : Bool := false
  /-- the condition it was parked for is met: the instruction issues before a trap that is due (R191) -/
  woken : Bool := false
  /-- what the instruction in `ir` has read once and still needs: the binding or the node of a texture or ray form (R360), the
  record image of an enqueue (R193) -/
  block : Option (BitVec 1024) := none
  /-- the command that the instruction in `ir` has captured, while it waits for room and for its entries (R273) -/
  captured : Option Cmd := none
deriving DecidableEq, Repr, Inhabited

/-! ### The core -/

/-- An entry of a neighbour link's queue (R185, R203). -/
structure LinkWord where
  /-- none: a push has reserved the entry and its result is not ready -/
  word : Option Dword
  /-- the slot that holds the word, or that reserved the entry -/
  by_ : Option SlotNo := none
deriving DecidableEq, Repr, Inhabited

/-- An L1 copy of a global line (R222), or an instruction-cache line (R452). -/
structure L1Line where
  /-- the line number: its key in memory divided by 64 -/
  line : Nat
  data : BitVec 512
  wts : Nat
  rts : Nat
  /-- the time of the latest store that the copy's value comes after (R233, log 106) -/
  seen : Nat := 0
deriving DecidableEq, Repr, Inhabited

/-- A translation held by a core's TLB (R383). -/
structure TlbEntry where
  root : Dword
  /-- VA[55:12] -/
  vpn : BitVec 44
  /-- the level of the leaf -/
  level : Nat
  /-- the leaf entry -/
  pte : Dword
deriving DecidableEq, Repr, Inhabited

/-- One element of a plane-engine accumulator (R291, R56, R60). -/
structure AccElem where
  acc : BitVec 640 := 0
  nan : Bool := false
  pinf : Bool := false
  ninf : Bool := false
  /-- the running sum of a pair (f64, f64) -/
  run : Dword := 0
deriving DecidableEq, Repr, Inhabited

/-- An accumulator tile (R291). -/
structure PTile where
  /-- none is EMPTY -/
  pair : Option (BitVec 5 × BitVec 5) := none
  elems : Vector AccElem 256 := Vector.replicate 256 {}
deriving DecidableEq, Repr, Inhabited

/-- The states of a stage barrier (R284). -/
inductive SbSt where
  | idle | opened | done | overshoot
deriving DecidableEq, Repr, Inhabited

/-- A stage barrier (R284). -/
structure StageBar where
  st : SbSt := .idle
  expect : BitVec 32 := 0
  got : BitVec 32 := 0
  /-- the cycle of the die in which it was last armed, counted at, reset or judged, and the latest of these in that cycle:
  0 an arm, 1 a delivery, 2 a reset, 3 a judgement (R285) -/
  cyc : Nat := 0
  rank : Nat := 0
deriving DecidableEq, Repr, Inhabited

/-- The state that belongs to a core (R7). -/
structure Core where
  /-- VLMAXP.LANES (R17) -/
  lanes : BitVec 4 := 8
  /-- CLKTS (R208) -/
  clkts : Nat := 0
  /-- the cycles since CLKTS last changed (R223) -/
  clkIdle : Nat := 0
  /-- the largest WTS of a store that the core has performed, read, or learned of through a local memory (R233, log 106) -/
  seen : Nat := 0
  /-- the four input link queues, north, east, south, west, oldest word first (R185) -/
  links : Vector (List LinkWord) 4 := Vector.replicate 4 []
  /-- the four stall counters (R185, R203) -/
  stalls : Vector (BitVec 32) 4 := Vector.replicate 4 0
  /-- the L1 data copies, most recently used first (R221, R222) -/
  l1 : List L1Line := []
  /-- the L1 instruction cache (R452) -/
  icache : List L1Line := []
  /-- the TLB (R383) -/
  tlb : List TlbEntry := []
  /-- the plane-engine tiles (R291) -/
  tiles : Vector PTile 4 := Vector.replicate 4 {}
  /-- the stage barriers (R284) -/
  sbars : Vector StageBar 16 := Vector.replicate 16 {}
deriving DecidableEq, Repr, Inhabited

/-! ### Memory and coherence -/

/-- Memory: address and byte pairs, addresses strictly rising, no entry equal to what an unlisted address reads as.
The keys cover every byte store of the device (see `Key` in Ops). -/
abbrev Memory := List Host.Cell

/-- What an unlisted address reads as: 0 (DESIGN CHOICE, log 1; the spec's own value for cluster memory, R215). -/
def Memory.unlisted : Byte := 0

/-- The canonical form. -/
abbrev Memory.wf (m : Memory) : Prop :=
  m.Pairwise (fun a b => a.1 < b.1) ∧ ∀ c ∈ m, c.2 ≠ Memory.unlisted

/-- The state of a directory entry (R402). -/
inductive DirSt where
  | inv | shared | modified
deriving DecidableEq, Repr, Inhabited

/-- A home's entry for one of its lines (R222, R402). -/
structure HomeLine where
  wts : Nat := 0
  rts : Nat := 0
  st : DirSt := .inv
  shr : BitVec 8 := 0
  own : DieNo := 0
  /-- the host may hold a copy through CXL.mem (R411) -/
  host : Bool := false
  /-- the host may hold it modified (R411) -/
  hostMod : Bool := false
  /-- a host-memory line at its proxy home (R410): not held, held after RdShared, held after RdOwn -/
  hostSt : DirSt := .inv
  /-- the dies whose L1s hold U copies of a range line (R402, R415) -/
  u : BitVec 8 := 0
  /-- the home slice holds the line (R281) -/
  held : Bool := false
  /-- it has been written since the memory core last wrote it back (R281) -/
  written : Bool := false
deriving DecidableEq, Repr, Inhabited

/-- A write of `n` bytes by the module's hardware that waits at its home until the host has given up the line (R411): of the
value `v`, or with `add` the sum of the old value and `v`. -/
structure HomeWr where
  pa : Nat
  n : Nat
  v : Nat
  add : Bool := false
deriving DecidableEq, Repr, Inhabited

/-- What an access to a line carries on of the times of the stores before it: the latest that its writers had seen, and
that its readers had (R233, log 106). -/
structure Mark where
  w : Nat := 0
  r : Nat := 0
deriving DecidableEq, Repr, Inhabited

/-- A copy of a line in the slice of a die that is not its home (R401, R402). Its data is the line's: a copy in S is
dropped before the next store and a copy in M is where the stores are performed. -/
structure SliceCopy where
  die : DieNo
  line : Nat
  owned : Bool
  wts : Nat
  rts : Nat
deriving DecidableEq, Repr, Inhabited

/-- A partial of a commutative range (R58, R59, R225): the exact sum in units of 2^λ with its sticky bits for add on F
and T formats, an element's code for every other combination. -/
structure Partial where
  acc : Int := 0
  nan : Bool := false
  pinf : Bool := false
  ninf : Bool := false
deriving DecidableEq, Repr, Inhabited

/-- An element of an L1's U copy (R225). -/
structure UElem where
  core : CoreNo
  elem : Nat
  part : Partial
  /-- the logical time of its latest contribution (R239, R241) -/
  ts : Nat := 0
deriving DecidableEq, Repr, Inhabited

/-- A run of physical bytes of a declared range (R255): `len` bytes at `pa` hold those at offset `off` of the range. -/
structure Run where
  pa : Nat
  off : Nat
  len : Nat
deriving DecidableEq, Repr, Inhabited

/-- A declared commutative range (R224, R226, R255): the physical lines it took at its declaration. -/
structure CRange where
  runs : List Run
  rm : BitVec 3
  op : BitVec 3
  fmt : BitVec 5
  /-- the home's partials, one per element -/
  parts : List Partial
  /-- the U copies of the cores -/
  ucopies : List UElem
deriving DecidableEq, Repr, Inhabited

/-- A decided-cell copy held by a die (R417, R434). -/
structure CellCopy where
  die : DieNo
  pa : Nat
  gen : BitVec 32
  image : BitVec 128
deriving DecidableEq, Repr, Inhabited

/-- A recycle whose release is not complete (R419, R427). -/
structure PendRecycle where
  pa : Nat
  slot : SlotNo
  gen : BitVec 32
  /-- the slot's engine commands that the release waits for -/
  cmds : List Nat
  /-- it waits for the slot's peer stores too: scope SYSTEM -/
  peer : Bool
  /-- it waits for the slot's remote-reduce packets within the module too: scope DIE and wider -/
  packets : Bool
deriving DecidableEq, Repr, Inhabited

/-! ### Scheduling -/

/-- A live region with the effective fields that the dispatcher holds (R160, R161, R379). -/
structure Region where
  handle : BitVec 32
  /-- the parent's handle, 0 at a root -/
  parent : BitVec 32
  /-- the physical address of the RCB: its counters are in memory (R163) -/
  rcb : Nat
  budget : BitVec 32 := 0xFFFFFFFF
  tlimit : BitVec 48 := 0
  fdom : BitVec 16 := 0
  weight : BitVec 8 := 1
  prio : BitVec 3 := 0
  mode : BitVec 2 := 2
  hpc : Dword := 0
  root : Dword := 0
  /-- dispatch is suspended (R388) -/
  suspended : Bool := false
deriving DecidableEq, Repr, Inhabited

/-- Who waits for room in a queue, in the order of R176. -/
inductive Waiter where
  /-- the slot that parked at an emit, launch, suspend or yield, or whose fault record waits -/
  | slot (n : SlotNo)
  /-- a shading task of a die's binner or resolvers that waits, by its kind and its key (R325) -/
  | gfx (die : DieNo) (trans : Bool) (key : Dword)
deriving DecidableEq, Repr, Inhabited

/-- A bound queue (R173 to R180). -/
structure Queue where
  /-- the queue number, die·512 + index -/
  num : BitVec 12
  region : BitVec 32
  win : Bool := false
  migr : Bool := false
  maxdepth : BitVec 8 := 0
  keyed : Bool := false
  prio : BitVec 3 := 0
  cap : Nat := 1
  stage : BitVec 4 := 0
  pipe : BitVec 8 := 0
  maxslots : BitVec 32 := 0
  minslots : BitVec 32 := 0
  store : Dword := 0
  /-- the entries in arrival order, oldest first -/
  entries : List Rec := []
  /-- the emitters that wait for room, first to park first -/
  waiters : List Waiter := []
  /-- the stage's quota of resident slots (R178) -/
  quota : Nat := 0
  /-- the cycle of the later of its last grant and the moment it last became non-empty (R180) -/
  since : Nat := 0
deriving DecidableEq, Repr, Inhabited

/-- A team barrier (R201): phase, arrivals and their bits. -/
structure TeamBar where
  ph : BitVec 32 := 0
  count : Nat := 0
  arrived : BitVec 256 := 0
deriving DecidableEq, Repr, Inhabited

/-- A team context in use (R165, R166, R218). -/
structure Team where
  die : DieNo
  clus : BitVec 2
  ctx : BitVec 8
  region : BitVec 32
  teamno : BitVec 32
  /-- the PC and the queue of the record that started it (R422) -/
  recPc : BitVec 56
  queue : BitVec 16
  size : Nat
  /-- the slot of each member -/
  slots : List SlotNo
  /-- the members that have executed done -/
  done : List Nat := []
  bars : Vector TeamBar 16 := Vector.replicate 16 {}
deriving DecidableEq, Repr, Inhabited

/-- An entry of a cluster's shape table (R229). -/
structure ShapeEnt where
  /-- the 22-bit sequence number -/
  seq : BitVec 22 := 0
  /-- the entry is in use -/
  live : Bool := false
  /-- the address of the record's memory image -/
  addr : Dword := 0
  /-- the on-chip copy of the 96-byte record -/
  image : BitVec 768 := 0
deriving DecidableEq, Repr, Inhabited

/-! ### Engines -/

/-- A memory-core invocation that is running (R345, R346). -/
structure McRun where
  /-- the copy command as issued -/
  cmd : Cmd
  /-- the invocation number j -/
  j : Nat
  /-- the memory core that it runs on (R345) -/
  core : Option Nat := none
  /-- the source range of the command, in bytes -/
  lo : Nat
  hi : Nat
  /-- m0 to m15 -/
  m : Vector Dword 16 := Vector.replicate 16 0
  /-- the 2 KiB buffer, bytes that are not zero -/
  buf : List (Nat × Byte) := []
  /-- the program counter, in words -/
  pc : Int := 0
  /-- where it goes next: the model's own latch -/
  npc : Int := 0
  /-- the instructions executed (reason 6 of R347) -/
  count : Nat := 0
deriving DecidableEq, Repr, Inhabited

/-! ### Graphics -/

/-- A pipeline state block (R315), with the slot whose gx.state made it current (R453). -/
structure GState where
  w : Vector Dword 8 := Vector.replicate 8 0
  owner : SlotNo := 0
  /-- the translation root and mode of that slot when the state was made current -/
  root : Dword := 0
  mode : BitVec 2 := 2
deriving DecidableEq, Repr, Inhabited

/-- A primitive that a batch holds (R316), with the values that were current at its submission (R321) and the queues of
its command. -/
structure Prim where
  w : Vector Dword 8
  opc : Dword
  tpc : Dword
  oq : BitVec 16
  tq : BitVec 16
deriving DecidableEq, Repr, Inhabited

/-- A batch (R320): its primitives in submission order, its tile lists and its wide list. -/
structure Batch where
  no : BitVec 16 := 0
  st : GState := {}
  slots : Nat := 256
  off : Nat := 0
  prims : List Prim := []
  /-- tile (tx, ty) and the positions of its listed primitives -/
  tiles : List ((Nat × Nat) × List Nat) := []
  wide : List Nat := []
deriving DecidableEq, Repr, Inhabited

/-- A shading task of a tile that has been emitted, or waits to be (R324, R325), and what became of its commit. -/
structure ShadeTask where
  trans : Bool
  prim : Prim
  /-- ticket of a translucent task, 0 for an opaque one -/
  ticket : Nat
  record : Rec
  queue : BitVec 16
  mask : Dword
  emitted : Bool := false
  /-- it stands in the order of a full queue (R176) -/
  waiting : Bool := false
  /-- its gx.commit was accepted: the command -/
  commit : Option Nat := none
  performed : Bool := false
deriving DecidableEq, Repr, Inhabited

/-- A tile of a closed batch at its cluster's resolver (R322 to R328). -/
structure TileRun where
  batch : BitVec 16
  st : GState
  tx : Nat
  ty : Nat
  /-- the primitives of the tile in submission order -/
  prims : List Prim
  /-- the tile slot, when the resolver has taken it (R323) -/
  slot : Option Nat := none
  slots : Nat := 256
  off : Nat := 0
  ids : List (BitVec 32) := []
  depth : List (BitVec 32) := []
  rate : BitVec 3 := 0
  final : Bool := false
  tasks : List ShadeTask := []
  /-- translucent primitives of the tile still to be emitted, with their masks -/
  toEmit : List (Prim × Dword) := []
deriving DecidableEq, Repr, Inhabited

/-- The graphics engine of a die (R314 to R329, R453). -/
structure Gfx where
  cur : Option GState := none
  fill : Batch := {}
  replay : Option Batch := none
  /-- tiles of the replaying batch still to be delivered, in ascending Morton index -/
  pending : List (Nat × Nat) := []
  tiles : List TileRun := []
  batchNo : BitVec 16 := 0
  lostTask : BitVec 8 := 0
  afault : BitVec 8 := 0
  dropped : BitVec 32 := 0
deriving DecidableEq, Repr, Inhabited

/-! ### Dies, the hub, the host -/

/-- The power states of a compute die (R449). -/
inductive PowerSt where
  | active | idle | off
deriving DecidableEq, Repr, Inhabited

/-- What belongs to a compute die. -/
structure Die where
  /-- DT (R239) -/
  dt : Nat := 0
  /-- cycles of the die's own clock since module reset (R3, R450) -/
  cycle : Nat := 0
  /-- ptr[P]: the region handle at which priority P starts (R180) -/
  ptr : Vector (BitVec 32) 8 := Vector.replicate 8 0
  /-- D[g] (R180) -/
  deficit : List (Nat × Nat) := []
  /-- qptr[g] (R180) -/
  qptr : List (Nat × Nat) := []
  /-- how many of the requests that arrive at module reset have been answered (R180) -/
  fresh : Nat := 0
  /-- the later free-slot requests, in arrival order; a HELD slot whose successor waits stands here too (R167) -/
  reqs : List SlotNo := []
  /-- slots that a team admission took before their request of module reset was answered (R165, R180) -/
  early : List SlotNo := []
  gfx : Gfx := {}
  /-- the cycle of the stage governor's last evaluation (R179) -/
  govAt : Nat := 0
  /-- the cycle up to which something of the die was in use (R449) -/
  busyAt : Nat := 0
  power : PowerSt := .active
  /-- PWR (R451): POWER, TEMP, EVENTS, REASON, LEVEL -/
  pwr : Dword := 0
  /-- the cycle of the last refresh of POWER (R451) -/
  pwrAt : Nat := 0
  /-- the rail voltage in mV and current in A that TELEMETRY reports -/
  railMv : Dword := 0
  railA : Dword := 0
  /-- the last flit-replay count in a row of its seam (R399, R400) -/
  replays : Nat := 0
  /-- the hub's cycle since which traffic waits at its seam and no valid flit has crossed it (R400) -/
  waitFrom : Option Nat := none
  /-- the die's seam is lost (R400, R421) -/
  lost : Bool := false
deriving DecidableEq, Repr, Inhabited

/-- What a peer packet asks for (R413, R414, R432). -/
inductive PeerOp where
  | load (size : Nat)
  | store (data : List Byte)
  /-- `n` bits from bit `lo` of the byte at the address (R230) -/
  | storeBits (lo n v : Nat)
  | atomic (aop : BitVec 4) (size : Nat) (cmp new : BitVec 128)
  /-- 0 propose, 1 read, 2 recycle, 3 the report that a recycle's release is complete (R427) -/
  | cell (op : BitVec 2) (gen : BitVec 32) (value : Dword) (winner : BitVec 24)
  | enqueue (queue : BitVec 12) (data : List Byte)
deriving DecidableEq, Repr, Inhabited

/-- A peer packet (R412, R413): the module it is addressed to and the module and slot that sent it, the physical
address in that module's device memory, and what it asks for. -/
structure PeerPacket where
  dest : BitVec 6 := 0
  src : BitVec 6 := 0
  slot : SlotNo := 0
  pa : Nat := 0
  op : PeerOp := .load 8
  /-- the ordering class of the access -/
  cls : BitVec 4 := 0
deriving DecidableEq, Repr, Inhabited

/-- A remote-reduce packet (R414): the physical destination, the source group's tag and element width, VL, the active
elements as pairs of index and bits, and the scale exponent. -/
structure ReducePacket where
  dest : BitVec 6 := 0
  src : BitVec 6 := 0
  slot : SlotNo := 0
  pa : Nat := 0
  tag : BitVec 5 := 0
  vl : Nat := 0
  elems : List (Nat × Dword) := []
  sx : BitVec 16 := 0
  /-- the logical time at which it was sent (R239, R241) -/
  ts : Nat := 0
deriving DecidableEq, Repr, Inhabited

/-- What an acknowledgement reports (R413, R414). -/
inductive AckKind where
  /-- a peer store has been performed, or a packet has been added -/
  | done
  /-- a remote-reduce packet was discarded, which counts in DROPS -/
  | refused
deriving DecidableEq, Repr, Inhabited

/-- What leaves the module (R412, R413, R414): packets that a hub sends towards a peer port, or a reply. -/
inductive OutMsg where
  | peer (port : BitVec 3) (p : PeerPacket)
  | reduce (port : BitVec 3) (p : ReducePacket)
  | ack (port : BitVec 3) (dest : BitVec 6) (slot : SlotNo) (a : AckKind)
  /-- the answer to a peer access: data, or the poison indication (R423) -/
  | reply (port : BitVec 3) (dest : BitVec 6) (slot : SlotNo) (v : BitVec 512) (poison : Bool)
  /-- data returned to the host for a CXL.mem read or a snoop; `poison`: with the poison indication -/
  | hostData (line : Nat) (data : BitVec 512) (poison : Bool)
  /-- an eviction from a proxy home (R410): CleanEvict, or DirtyEvict with the line -/
  | hostEvict (line : Nat) (dirty : Option (BitVec 512))
  /-- completion of a host write -/
  | hostDone (line : Nat) (poison : Bool)
  /-- a back-invalidation that the home sends (R411); `inv`: BISnpInv, else BISnpData -/
  | bisnp (line : Nat) (inv : Bool)
  /-- a request for a host-memory line (R410); `own`: RdOwn, else RdShared -/
  | hostReq (line : Nat) (own : Bool)
  /-- an MSI-X vector (R440) -/
  | msix (vec : BitVec 6)
deriving DecidableEq, Repr

/-- A migration command of the balancer (R183, R184). -/
structure Migration where
  src : BitVec 12 := 0
  dst : DieNo := 0
  count : Nat := 0
deriving DecidableEq, Repr, Inhabited

/-- The management core and its command window (R438 to R448). -/
structure Nasum where
  /-- NSTAT.PHASE (R440): 0 at reset, 1 to 4 during bring-up, 5 READY, 6 BOOTED, 7 OFF, 0xFFFF FAILED -/
  phase : BitVec 16 := 0
  narg : Vector Dword 7 := Vector.replicate 7 0
  busy : Bool := false
  tag : BitVec 16 := 0
  result : BitVec 16 := 0
  nres : Vector Dword 7 := Vector.replicate 7 0
  nref : Dword := 0
  /-- the module number (R412) -/
  modNo : BitVec 6 := 0
  /-- the routing table (R412): a port 0 to 7, or 0xFF -/
  route : Vector Byte 64 := Vector.replicate 64 0xFF
  /-- the peer ports that locked (R439) -/
  ports : BitVec 8 := 0
  /-- the host ports that locked (R438) -/
  hostPorts : BitVec 2 := 0
  /-- SHAKE256 of the running firmware image and its version (R448) -/
  fwDigest : BitVec 256 := 0
  fwVersion : BitVec 32 := 0
  /-- the one-time version cells (R446) -/
  verCells : BitVec 32 := 0
  /-- the image log (R448) -/
  imageLog : BitVec 256 := 0
  /-- the one-time cells of the identity key that are burnt, and the next index (R447) -/
  burnt : Nat := 0
  keyIndex : Nat := 0
  /-- the next region handle (R160) -/
  nextHandle : Nat := 2
  /-- the hub's PWR fields, rail voltage in mV and rail current in A (R451) -/
  hubPwr : Dword := 0
  hubMv : Dword := 0
  hubA : Dword := 0
  /-- fault reports in the order they arose (R380, R451) -/
  reports : List Rec := []
deriving DecidableEq, Repr, Inhabited

/-- The data that names the object of an operation or event that has no operand field. -/
structure EvArgs where
  /-- a slot -/
  n : SlotNo := 0
  /-- an engine command -/
  c : Nat := 0
  /-- a compute die -/
  die : DieNo := 0
  /-- a core -/
  core : CoreNo := 0
  /-- a line number -/
  line : Nat := 0
  /-- a physical address, or an offset -/
  pa : Nat := 0
  /-- a tile -/
  tx : Nat := 0
  ty : Nat := 0
  /-- a logical time, or a second number -/
  t : Nat := 0
  /-- a value -/
  v : Dword := 0
  /-- a queue number -/
  q : BitVec 16 := 0
  /-- a reply goes to slot `n` (R432) -/
  wants : Bool := false
  /-- a command code -/
  code : BitVec 16 := 0
  /-- an address and the kind of access -/
  va : Dword := 0
  kind : AccessKind := .read
  /-- a trap -/
  trap : TrapInfo := {}
  mig : Migration := {}
  data : List Byte := []
  peer : PeerPacket := {}
  red : ReducePacket := {}
  ack : AckKind := .done
  /-- a message that the hub passes on (R412) -/
  msg : OutMsg := .msix 0
deriving DecidableEq, Repr

/-- The state of the module. -/
structure State where
  /-- the number of the slot that is held in place: the model's own -/
  slotNo : SlotNo
  /-- that slot -/
  slot : Slot
  /-- its core -/
  core : Core
  /-- every other slot that is not as at reset -/
  others : List (Nat × Slot)
  /-- every other core that is not as at reset -/
  otherCores : List (Nat × Core)
  /-- every byte store of the device -/
  mem : Memory
  /-- the homes' entries, by line (R222, R402) -/
  homes : List (Nat × HomeLine)
  /-- copies in slices of other dies (R401) -/
  slices : List SliceCopy
  /-- the lines whose accesses carry a time on that the line's own timestamps do not, by line number (R233, log 106) -/
  marks : List (Nat × Mark)
  /-- writes of the hardware that wait for the host to give up their lines, oldest first (R411) -/
  deferred : List HomeWr
  /-- lines that are POISON (R421) -/
  poison : List Nat
  ranges : List CRange
  cells : List CellCopy
  recycles : List PendRecycle
  regions : List Region
  queues : List Queue
  /-- writes refused so far, by queue number (R177) -/
  refused : List (Nat × Nat)
  teams : List Team
  /-- the clusters' shape tables, by (die·4 + cluster)·1024 + entry (R229) -/
  shapes : List (Nat × ShapeEnt)
  cmds : List Cmd
  /-- the next command number: the model's own -/
  nextCmd : Nat
  /-- memory-core invocations that are running; the first is the one whose turn it is -/
  mcs : List McRun
  /-- the memory cores' program slots 3 to 15, as words (R280) -/
  mcprog : List (Nat × List (BitVec 32))
  dies : Vector Die 8
  /-- MT (R404) -/
  mt : Nat
  nasum : Nasum
  /-- checkpoints in the safe tier, by slot (R444) -/
  safe : List (Nat × Memory)
  /-- what the module has sent out -/
  outbox : List OutMsg
  /-- host lines with an outstanding back-invalidation (R411) -/
  bisnp : List Nat
  /-- host-memory lines requested and not yet returned (R410) -/
  fills : List Nat
  /-- the cycle of the balancer's last cycle (R183) -/
  balAt : Nat
  /-- migration commands of the balancer that are not yet acknowledged (R183) -/
  migrations : List Migration
  /-- operations and events that have been brought about and wait to be performed: host and peer inputs, and the parts
  of an operation that come later -/
  inbox : List (Instr × EvArgs)
  /-- the object of the event that is being performed: the model's own -/
  arg : EvArgs
  /-- free values drawn so far: the model's own (log 3) -/
  drawn : Nat
  /-- cycles of the hub's clock since module reset, for the epochs of R183 (R3) -/
  cycle : Nat
deriving DecidableEq, Repr

/-- Why the machine stops. -/
inductive Fault where
  /-- raised by the meaning of an operation or event whose object does not exist: a memory-core instruction with no
  invocation running, a step of a command that no engine holds. The device performs no such operation. Safe: nothing is
  claimed of what follows. -/
  | noObject
deriving DecidableEq, Repr

/-- Why an instruction has no meaning here. -/
inductive Refusal where
  /-- raised by an arm of `exec` whose meaning is not written. Safe: nothing is claimed of it. -/
  | notModelled (mnemonic : String)
deriving DecidableEq, Repr

/-- The engine registers' reset values (R271, R283, R289, R302, R304, R314, R338). -/
def resetEngine (e i : Nat) : Dword :=
  match e, i with
  | 0, 0 | 1, 0 | 2, 0 | 3, 0 | 4, 0 | 5, 0 | 6, 0 => 0x50
  | 0, 11 => 1
  | 3, 19 => 0xE000
  | 4, 14 => 0xE022
  | 5, 8 => 0x10000000000
  | 6, 9 => 16
  | 4, i => if 32 ≤ i then 1 else 0
  | _, _ => 0

/-- The seven engines' registers after a slot reset (R270). -/
def resetEr : Vector (Vector Dword 64) 7 :=
  Vector.ofFn fun e => Vector.ofFn fun i => resetEngine e.val i.val

/-- A slot after reset (R7, R162): FREE, in mode 2. -/
def Slot.reset : Slot := { er := resetEr }

/-- A core after module reset (R7). -/
def Core.reset : Core := {}

/-- The module right after reset: bring-up (R438) not begun, NSTAT 0 (R440), every slot FREE with MODE 2 (R162), nothing listed in
memory, every counter 0. -/
def State.reset : State :=
  { slotNo := 0, slot := Slot.reset, core := Core.reset, others := [], otherCores := [], mem := [], homes := [],
    slices := [], marks := [], deferred := [], poison := [], ranges := [], cells := [], recycles := [], regions := [], queues := [], refused := [],
    teams := [], shapes := [], cmds := [], nextCmd := 0, mcs := [], mcprog := [], dies := Vector.replicate 8 {}, mt := 0,
    nasum := {}, safe := [], outbox := [], bisnp := [], fills := [], balAt := 0, migrations := [], inbox := [], arg := {}, drawn := 0, cycle := 0 }

end Sys2Proof.Machine
end

