-- ==== Sys2Proof/Machine/Ops.lean ====
section
/-! DEFINITION. The named operations over registers, slots, cores and bytes, and taking an exception and returning from
one. Meanings are written over these. -/

namespace Sys2Proof.Machine

/-- What a meaning answers. -/
abbrev Out := Host.Outcome State Fault Refusal

/-! ### Lists indexed by a number -/

/-- The entry of `k`, or `d` where it is not listed. -/
def aget {α : Type} (d : α) (l : List (Nat × α)) (k : Nat) : α :=
  match l with
  | [] => d
  | (j, a) :: r => if j = k then a else aget d r k

/-- The list with `k`'s entry replaced. -/
def aset {α : Type} (l : List (Nat × α)) (k : Nat) (a : α) : List (Nat × α) :=
  match l with
  | [] => [(k, a)]
  | (j, b) :: r => if j = k then (k, a) :: r else (j, b) :: aset r k a

/-- The list without `k`'s entry. -/
def adel {α : Type} (l : List (Nat × α)) (k : Nat) : List (Nat × α) := l.filter fun p => p.1 ≠ k

/-! ### Bytes of memory -/

/-- The byte at a key. -/
def Memory.get : Memory → Nat → Byte
  | [], _ => Memory.unlisted
  | (k, b) :: r, a => if k = a then b else Memory.get r a

/-- A new byte in its place. -/
def Memory.ins : Memory → Nat → Byte → Memory
  | [], a, v => [(a, v)]
  | (k, b) :: r, a, v => if a < k then (a, v) :: (k, b) :: r else (k, b) :: Memory.ins r a v

/-- Memory with the byte at `a` replaced, in canonical form. -/
def Memory.put (m : Memory) (a : Nat) (v : Byte) : Memory :=
  if v = Memory.unlisted then m.filter (fun c => c.1 ≠ a) else Memory.ins (m.filter fun c => c.1 ≠ a) a v

/-- `n` bytes from key `a`, as a little-endian number (R4). -/
def Memory.read (m : Memory) (a : Nat) : Nat → Nat
  | 0 => 0
  | n + 1 => (m.get a).toNat + 256 * Memory.read m (a + 1) n

/-- `n` bytes from key `a` replaced by those of the little-endian number `v`. -/
def Memory.write (m : Memory) (a : Nat) : Nat → Nat → Memory
  | 0, _ => m
  | n + 1, v => Memory.write (m.put a (BitVec.ofNat 8 v)) (a + 1) n (v / 256)

/-- A list of bytes written from key `a`. -/
def Memory.writeList (m : Memory) (a : Nat) : List Byte → Memory
  | [] => m
  | b :: r => Memory.writeList (m.put a b) (a + 1) r

/-- `n` bytes from key `a`. -/
def Memory.readList (m : Memory) (a n : Nat) : List Byte := (List.range n).map fun i => m.get (a + i)

/-- A list of bytes as a little-endian number. -/
def natOfBytes : List Byte → Nat
  | [] => 0
  | b :: r => b.toNat + 256 * natOfBytes r

/-- The `n` low bytes of a number, least significant first. -/
def bytesOfNat : Nat → Nat → List Byte
  | 0, _ => []
  | n + 1, v => BitVec.ofNat 8 v :: bytesOfNat n (v / 256)

/-- The number with the `w` bits from bit `lo` replaced by `v`. -/
def natSetBits (x lo w v : Nat) : Nat := x % 2 ^ lo + 2 ^ lo * (v % 2 ^ w) + 2 ^ (lo + w) * (x / 2 ^ (lo + w))

/-! ### Slots and cores by number -/

/-- The core of a slot (R21). -/
def coreOf (n : SlotNo) : CoreNo := fld n 3 13
/-- The die of a core. -/
def dieOfCore (c : CoreNo) : DieNo := fld c 10 3
/-- The die of a slot. -/
def dieOf (n : SlotNo) : DieNo := fld n 13 3
/-- A core's cluster of the module: die·4 + cluster. -/
def clusOfCore (c : CoreNo) : Nat := c.toNat / 256
/-- The core-in-cluster number. -/
def inClus (c : CoreNo) : Nat := c.toNat % 256

def State.coreNo (s : State) : CoreNo := coreOf s.slotNo
def State.dieNo (s : State) : DieNo := dieOf s.slotNo

/-- The slot with number `n`. -/
def State.getSlot (s : State) (n : SlotNo) : Slot :=
  if n = s.slotNo then s.slot else aget Slot.reset s.others n.toNat
def State.setSlot (s : State) (n : SlotNo) (v : Slot) : State :=
  if n = s.slotNo then { s with slot := v } else { s with others := aset s.others n.toNat v }
def State.modSlot (s : State) (n : SlotNo) (f : Slot → Slot) : State := s.setSlot n (f (s.getSlot n))

def State.die (s : State) (d : DieNo) : Die := s.dies[d.toNat]'d.isLt
def State.setDie (s : State) (d : DieNo) (v : Die) : State := { s with dies := s.dies.set d.toNat v d.isLt }
def State.modDie (s : State) (d : DieNo) (f : Die → Die) : State := s.setDie d (f (s.die d))

/-- A core that is not listed: as at reset, its logical time moved by its die's cycles that have passed (R223). -/
def State.coreDefault (s : State) (c : CoreNo) : Core :=
  let k := (s.die (dieOfCore c)).cycle
  { Core.reset with clkts := k / 64, clkIdle := k % 64 }

/-- The core with number `c`. -/
def State.getCore (s : State) (c : CoreNo) : Core :=
  if c = s.coreNo then s.core else aget (s.coreDefault c) s.otherCores c.toNat
def State.setCore (s : State) (c : CoreNo) (v : Core) : State :=
  if c = s.coreNo then { s with core := v } else { s with otherCores := aset s.otherCores c.toNat v }
def State.modCore (s : State) (c : CoreNo) (f : Core → Core) : State := s.setCore c (f (s.getCore c))

/-- Every slot that is not as at reset, with its number. -/
def State.allSlots (s : State) : List (SlotNo × Slot) :=
  (s.slotNo, s.slot) :: s.others.map fun p => (BitVec.ofNat 16 p.1, p.2)

/-- The state with slot `n` and its core held in place. -/
def State.focus (s : State) (n : SlotNo) : State :=
  if n = s.slotNo then s
  else
    let c := coreOf n
    { s with
      slotNo := n
      slot := s.getSlot n
      others := aset (adel s.others n.toNat) s.slotNo.toNat s.slot
      core := s.getCore c
      otherCores := if c = s.coreNo then s.otherCores
        else aset (adel s.otherCores c.toNat) s.coreNo.toNat s.core }

/-- The state with its slot changed. -/
def State.upd (s : State) (f : Slot → Slot) : State := { s with slot := f s.slot }
/-- The state with its core changed. -/
def State.updCore (s : State) (f : Core → Core) : State := { s with core := f s.core }

/-- An operation or event brought about, to be performed after those before it. -/
def State.post (s : State) (i : Instr) (a : EvArgs) : State := { s with inbox := s.inbox ++ [(i, a)] }
/-- A message that leaves the module. -/
def State.send (s : State) (m : OutMsg) : State := { s with outbox := s.outbox ++ [m] }

/-! ### Scalar registers -/

/-- s(r) (R8). -/
def State.getX (s : State) (r : RegNo) : Dword := if r = 0 then 0 else s.slot.x[r.toNat]'r.isLt

/-- A write of s(r): discarded for s0 (R8). -/
def State.setX (s : State) (r : RegNo) (v : Dword) : State :=
  if r = 0 then s else { s with slot := { s.slot with x := s.slot.x.set r.toNat v r.isLt } }

/-! ### Neighbour links (R185, R203) -/

/-- The link that a scalar register names while LM = 1: 0 north, 1 east, 2 south, 3 west. -/
def linkOf (r : RegNo) : Option (Fin 4) :=
  if r = 28 then some 0 else if r = 29 then some 1 else if r = 30 then some 2 else if r = 31 then some 3 else none

/-- The neighbour of a core in a direction, none at the edge of the cluster grid. -/
def neighbour (c : CoreNo) (d : Fin 4) : Option CoreNo :=
  let k := inClus c
  let p := k / 16
  let q := k % 16
  let x := 4 * (p % 4) + q % 4
  let y := 4 * (p / 4) + q / 4
  let at_ (x y : Nat) : CoreNo :=
    BitVec.ofNat 13 (256 * (c.toNat / 256) + 16 * (4 * (y / 4) + x / 4) + 4 * (y % 4) + x % 4)
  match d with
  | 0 => if y = 0 then none else some (at_ x (y - 1))
  | 1 => if x = 15 then none else some (at_ (x + 1) y)
  | 2 => if y = 15 then none else some (at_ x (y + 1))
  | 3 => if x = 0 then none else some (at_ (x - 1) y)

/-- The neighbour's input that a push in a direction enters. -/
def opposite (d : Fin 4) : Fin 4 := d + 2

/-- The links that a list of register fields names, when LM = 1. -/
def State.linksOf (s : State) (rs : List RegNo) : List (Fin 4) := if s.slot.lm then rs.filterMap linkOf else []

/-- The words of a link's queue that slot `n` may take, oldest first: those that it holds itself, else those that no slot
holds; an entry whose word has not come keeps back those behind it (R203). -/
def linkWords (n : SlotNo) (q : List LinkWord) : List Dword :=
  let a := q.takeWhile fun w => w.word.isSome
  let own := a.filter fun w => w.by_ = some n
  (if own.isEmpty then a.filter fun w => w.by_ = none else own).filterMap LinkWord.word

/-- The words waiting for the slot at a link of its core. -/
def State.linkQ (s : State) (d : Fin 4) : List Dword := linkWords s.slotNo (s.core.links.get d)

/-- A queue without the word that slot `n` takes next. -/
def dropWord (n : SlotNo) (q : List LinkWord) : List LinkWord :=
  match q.findIdx? fun w => w.word.isSome && w.by_ = some n with
  | some i => q.eraseIdx i
  | none => match q.findIdx? fun w => w.word.isSome && w.by_ = none with
    | some i => q.eraseIdx i
    | none => q

/-- A queue with the first `k` words that no slot holds held by slot `n`. -/
def holdWords (n : SlotNo) : Nat → List LinkWord → List LinkWord
  | 0, q => q
  | _, [] => []
  | k + 1, w :: r =>
    if w.word.isSome && w.by_ = none then { w with by_ := some n } :: holdWords n k r else w :: holdWords n (k + 1) r

/-- A queue with a result of slot `n`: in the entry that it has reserved, else at its end. -/
def pushWord (n : SlotNo) (v : Dword) (q : List LinkWord) : List LinkWord :=
  match q.findIdx? fun w => w.word.isNone && w.by_ = some n with
  | some i => q.set i { word := some v }
  | none => q ++ [{ word := some v }]

/-- A queue with an entry reserved by slot `n`. -/
def reserveWord (n : SlotNo) (q : List LinkWord) : List LinkWord :=
  if q.any fun w => w.word.isNone && w.by_ = some n then q else q ++ [{ word := none, by_ := some n }]

/-- A queue in which slot `n` holds no word and reserves no entry. -/
def releaseWords (n : SlotNo) (q : List LinkWord) : List LinkWord :=
  (q.filter fun w => !(w.word.isNone && w.by_ = some n)).map fun w => if w.by_ = some n then { w with by_ := none } else w

/-- The free entries of the neighbour's queue that a link pushes to, net of reservations; none at the edge. -/
def State.linkRoom (s : State) (d : Fin 4) : Option Nat :=
  (neighbour s.coreNo d).map fun c => 16 - ((s.getCore c).links.get (opposite d)).length

/-- Some link named is at the edge of the cluster grid. -/
def State.linkEdge (s : State) (rs : List RegNo) : Bool :=
  (s.linksOf rs).any fun d => (neighbour s.coreNo d).isNone

/-- The slot has reserved an entry of the queue that a link pushes to. -/
def State.linkReserved (s : State) (d : Fin 4) : Bool :=
  (neighbour s.coreNo d).any fun c =>
    ((s.getCore c).links.get (opposite d)).any fun w => w.word.isNone && w.by_ = some s.slotNo

/-- Every word popped from a link is present: `ds` names the link once for each. -/
def State.popsMet (s : State) (ds : List (Fin 4)) (d : Fin 4) : Bool := ds.count d ≤ (s.linkQ d).length
/-- The queue that a link pushes to has room. -/
def State.pushMet (s : State) (d : Fin 4) : Bool := 0 < (s.linkRoom d).getD 0 || s.linkReserved d

/-- Every word popped is present and the queue pushed to has room (R185). -/
def State.linkReady (s : State) (reads : List RegNo) (write : Option RegNo) : Bool :=
  (s.linksOf reads).all (s.popsMet (s.linksOf reads)) && (s.linksOf write.toList).all s.pushMet

/-- The operand that field `r` reads when the fields `prev` were read before it: s(r), or the next word of a link. -/
def State.src (s : State) (prev : List RegNo) (r : RegNo) : Dword :=
  if s.slot.lm then
    match linkOf r with
    | some d => (s.linkQ d).getD (prev.count r) 0
    | none => s.getX r
  else s.getX r

/-- A core with an input link queue changed. -/
def Core.modLink (c : Core) (d : Fin 4) (f : List LinkWord → List LinkWord) : Core :=
  { c with links := c.links.set d.val (f (c.links.get d)) d.isLt }

/-- The state after the words that the fields name have been popped. -/
def State.popLinks (s : State) (reads : List RegNo) : State :=
  (s.linksOf reads).foldl
    (fun s d => s.updCore fun c => c.modLink d (dropWord s.slotNo)) s

/-- A result written to field `r`: to s(r), or pushed to the link it names. -/
def State.putX (s : State) (r : RegNo) (v : Dword) : State :=
  if s.slot.lm then
    match linkOf r with
    | some d =>
      match neighbour s.coreNo d with
      | some c => s.modCore c fun k => k.modLink (opposite d) (pushWord s.slotNo v)
      | none => s
    | none => s.setX r v
  else s.setX r v

/-- The instruction has issued and waits for its access: each word that it reads is held at its queue's head, and the entry
it pushes to is reserved (R203). -/
def State.holdLinks (s : State) (reads : List RegNo) (write : Option RegNo) : State :=
  let ds := s.linksOf reads
  let ws := s.linksOf write.toList
  if s.slot.linked || (ds.isEmpty && ws.isEmpty) then s
  else
    let s := ds.eraseDups.foldl (fun s d => s.updCore fun c => c.modLink d (holdWords s.slotNo (ds.count d))) s
    let s := ws.foldl (fun s d => match neighbour s.coreNo d with
      | some c => s.modCore c fun k => k.modLink (opposite d) (reserveWord s.slotNo)
      | none => s) s
    s.upd fun t => { t with linked := true }

/-- The words that the slot holds become available again, and its reserved entry is given up (R203, R379). -/
def State.releaseLinks (s : State) : State :=
  if s.slot.linked then
    let s := [(0 : Fin 4), 1, 2, 3].foldl (fun s d =>
      let s := s.updCore fun c => c.modLink d (releaseWords s.slotNo)
      match if s.linkReserved d then neighbour s.coreNo d else none with
      | some c => s.modCore c fun k => k.modLink (opposite d) (releaseWords s.slotNo)
      | none => s) s
    s.upd fun t => { t with linked := false }
  else s

/-- The same for slot `n`, which need not be in place. -/
def State.releaseLinksOf (s : State) (n : SlotNo) : State :=
  if (s.getSlot n).linked then ((s.focus n).releaseLinks).focus s.slotNo else s

/-! ### Stopping short of completion -/

/-- The slot parks at the instruction that is executing (R159). -/
def State.parkAt (s : State) (p : Park) : State := s.upd fun t => { t with st := .parked, park := p, woken := false }

/-- The instruction that is executing has not completed: the slot tries it again (R187, R276). -/
def State.holdOn (s : State) : State := s.upd fun t => { t with hold := true }

/-! ### Traps (R373 to R380) -/

def causeIllegal : BitVec 16 := 1
def causeVill : BitVec 16 := 2
def causeVtagx : BitVec 16 := 3
def causeMisaligned : BitVec 16 := 4
def causeAddress : BitVec 16 := 5
def causeVdupaddr : BitVec 16 := 6
def causeSys : BitVec 16 := 7
def causeBrk : BitVec 16 := 8
def causePfFetch : BitVec 16 := 9
def causePfLoad : BitVec 16 := 10
def causePfStore : BitVec 16 := 11
def causeNoqueue : BitVec 16 := 12
def causeEmitDepth : BitVec 16 := 13
def causeTaskLimit : BitVec 16 := 14
def causeStageOverrun : BitVec 16 := 15
def causeCmemFull : BitVec 16 := 16
def causeNoshape : BitVec 16 := 17
def causePepair : BitVec 16 := 18
def causeChainForm : BitVec 16 := 19
def causeChainOverflow : BitVec 16 := 20
def causeMcfault : BitVec 16 := 21
def causePoison : BitVec 16 := 22
def causeSeamLost : BitVec 16 := 23

/-- The table rows of R373 that say local. -/
def localCause (c : BitVec 16) : Bool :=
  (1 ≤ c.toNat && c.toNat ≤ 8) || c.toNat = 12 || c.toNat = 13 || (15 ≤ c.toNat && c.toNat ≤ 21)

def Slot.tvecEn (t : Slot) : Bool := t.tvec.getLsbD 0
def Slot.busy (t : Slot) : Bool := t.tcause.getLsbD 63

/-- The slot's cycle limit has been reached (R172). -/
def Slot.limitDue (t : Slot) : Bool := t.tasklim ≠ 0 && decide (t.tasklim.toNat ≤ t.taskcyc.toNat)

/-- A trap is due (R172, R382). -/
def Slot.trapDue (t : Slot) : Bool := t.limitDue || !t.efaults.isEmpty

/-- Local delivery (R375): the row says local, TVEC.EN is 1 and TCAUSE.BUSY is 0. -/
def Slot.deliversLocally (t : Slot) (i : TrapInfo) : Bool := localCause i.cause && t.tvecEn && !t.busy

/-- The resume point's address: of the instruction, or the one after it for sys and brk (R376). -/
def Slot.trapPc (t : Slot) (i : TrapInfo) : BitVec 56 := if i.after then t.pc + 4 else t.pc

/-- BPOS: the body position of the instruction at the resume point, 0 outside a body. -/
def Slot.trapBpos (t : Slot) (i : TrapInfo) : BitVec 6 :=
  if t.loop then (if i.after then t.bpos + 1 else t.bpos) else 0

/-- TCAUSE as local entry writes it, with BUSY 0 (R376). -/
def Slot.tcauseOf (t : Slot) (i : TrapInfo) : Dword :=
  BitVec.ofNat 64 (i.cause.toNat + i.eng.toNat * 2 ^ 28 + (i.elem.getD 0).toNat * 2 ^ 32 + b2n i.arr * 2 ^ 54
    + b2n i.elem.isSome * 2 ^ 55 + (t.trapBpos i).toNat * 2 ^ 56 + b2n t.loop * 2 ^ 62)

/-- The handler's address (R376): TVEC.ADDR·4. -/
def Slot.handler (t : Slot) : BitVec 56 := fld t.tvec 0 56 &&& ~~~3#56

/-- Local entry (R376). -/
def Slot.localEntry (t : Slot) (i : TrapInfo) : Slot :=
  { t with
    epc := t.trapPc i
    tcause := t.tcauseOf i ||| 0x8000000000000000
    tval := i.tval
    txval := i.txval
    loop := false
    st := .running
    park := .none
    restart := none
    arrTok := none
    hold := false
    block := none
    captured := none
    woken := false
    pc := t.handler
    npc := t.handler }

/-- The live region with a handle. -/
def State.region (s : State) (h : BitVec 32) : Option Region := s.regions.find? fun r => r.handle = h

/-- The region of the task in a slot: TINFO.REGION (R170). -/
def Slot.regionH (t : Slot) : BitVec 32 := fld t.tinfo 32 32

/-- The effective fault-handler PC of a region (R379). -/
def State.hpcOf (s : State) (h : BitVec 32) : Dword := (s.region h).elim 0 Region.hpc

/-- The fault record of R379, for the slot's next SEQ. -/
def State.faultRecord (s : State) (n : SlotNo) (t : Slot) (i : TrapInfo) : Rec :=
  { w0 := fld (s.hpcOf t.regionH) 0 56 |>.setWidth 64
    w1 := 0
    key := i.cause.setWidth 64
    arg0 := t.regionH ++ (t.seq + 1) ++ n
    arg1 := t.tcauseOf i
    arg2 := i.tval
    arg3 := (t.trapPc i).setWidth 64
    fp := i.txval }

/-- Delivery to the fault domain (R379): the slot becomes FAULTED, keeps its trap-state registers and a resume point, and
its fault record waits to be enqueued. -/
def Slot.domainEntry (t : Slot) (i : TrapInfo) (r : Rec) : Slot :=
  { t with
    st := .faulted
    park := .none
    resume :=
      { rpc := t.trapPc i
        loop := t.loop
        bpos := t.trapBpos i
        ev := i.elem.isSome
        elem := i.elem.getD 0
        arr := i.arr
        token := if i.arr then i.token else 0 }
    restart := none
    arrTok := none
    hold := false
    block := none
    captured := none
    woken := false
    seq := t.seq + 1
    faultRec := some r
    faultReg := t.regionH }

/-- What a trap carries where the instruction at its resume point has taken effect in part: the element at which a vector
instruction resumes (R377, R378), and the arrival of a bar.sync that is counted, whose token goes to TXVAL (R191, R376); a
trap that already names an element keeps it. A trap taken after its instruction carries neither. Where a local trap needs
TXVAL for its own detail, the arrival has no place there (log 52). -/
def Slot.carried (t : Slot) (i : TrapInfo) : TrapInfo :=
  if i.after then i
  else
    let i := { i with elem := if i.elem.isSome then i.elem else t.restart }
    match t.arrTok with
    | none => i
    | some tok =>
      if t.deliversLocally i && i.txval ≠ 0 then i
      else { i with arr := true, token := tok, txval := if i.txval = 0 then tok.setWidth 64 else i.txval }

/-- Taking a trap in the slot that is held in place: the one shared operation (R375). The link words that it held become
available again (R203, R379). -/
def State.takeTrap (s : State) (i : TrapInfo) : State :=
  let s := s.releaseLinks
  let i := s.slot.carried i
  if s.slot.deliversLocally i then { s with slot := s.slot.localEntry i }
  else { s with slot := s.slot.domainEntry i (s.faultRecord s.slotNo s.slot i) }

/-- A meaning's answer where the instruction traps. -/
def State.trap (s : State) (i : TrapInfo) : Out := .next (s.takeTrap i)

/-- The word that is executing, as TVAL holds it (R66). -/
def State.word (s : State) : Dword := s.slot.ir.setWidth 64

/-- An ILLEGAL trap of the word that is executing (R66). -/
def State.illegal (s : State) : Out := s.trap { cause := causeIllegal, tval := s.word }

/-- Resuming at a resume point: what tret does from EPC and TCAUSE (R378) and FRES from the slot's resume point (R381). -/
def Slot.resumeAt (t : Slot) (r : Resume) : Slot :=
  { t with
    pc := r.rpc
    npc := r.rpc
    loop := r.loop
    bpos := if r.loop then r.bpos else t.bpos
    restart := if r.ev then some r.elem else none
    arrTok := if r.arr then some r.token else none
    hold := false
    block := none
    captured := none
    woken := false
    st := .running
    park := .none }

/-- The resume point that EPC, TCAUSE and TXVAL hold (R378). -/
def Slot.trapResume (t : Slot) : Resume :=
  { rpc := t.epc
    loop := t.tcause.getLsbD 62
    bpos := fld t.tcause 56 6
    ev := t.tcause.getLsbD 55
    elem := fld t.tcause 32 16
    arr := t.tcause.getLsbD 54
    token := fld t.txval 0 32 }

/-- The return from a local handler (R378), when TCAUSE.BUSY is 1. -/
def Slot.tret (t : Slot) : Slot :=
  { t.resumeAt t.trapResume with tcause := t.tcause &&& 0x7FFFFFFFFFFFFFFF }

/-! ### The shape of a scalar instruction -/

/-- A fence of the slot that has not completed holds back the pushes and pops of links, which count in every class (R235,
R254). -/
def State.linksFenced (s : State) (rs : List RegNo) : Bool :=
  !(s.linksOf rs).isEmpty && s.slot.fences.any fun f => f.after ≠ 0

/-- The link conditions of R185 before a scalar instruction: it traps ILLEGAL at the edge, is held behind a fence, parks
while a word or room is missing, and goes on otherwise. -/
def State.linkGate (s : State) (reads : List RegNo) (write : Option RegNo) (k : Out) : Out :=
  if s.linkEdge (reads ++ write.toList) then s.illegal
  else if s.linksFenced (reads ++ write.toList) then .next s.holdOn
  else if s.linkReady reads write then k
  else .next (s.parkAt (.link (s.linksOf reads) (s.linksOf write.toList)))

/-- Completion of a scalar instruction: words popped, the result written. -/
def State.retire (s : State) (reads : List RegNo) (d : RegNo) (v : Dword) : State := (s.popLinks reads).putX d v

/-- The scalar instruction with two operands and one result. -/
def State.op2 (s : State) (d a b : RegNo) (f : Dword → Dword → Dword) : Out :=
  s.linkGate [a, b] (some d) (.next (s.retire [a, b] d (f (s.src [] a) (s.src [a] b))))

/-- The scalar instruction with one operand and one result. -/
def State.op1 (s : State) (d a : RegNo) (f : Dword → Dword) : Out :=
  s.linkGate [a] (some d) (.next (s.retire [a] d (f (s.src [] a))))

/-- The scalar instruction with no operand and one result. -/
def State.op0 (s : State) (d : RegNo) (v : Dword) : Out := s.linkGate [] (some d) (.next (s.retire [] d v))

/-- A result of an operation that may stop: a value and the state, a trap with the state that stands before it, a wait, or
a stop. -/
inductive Res (α : Type) where
  | ok (a : α) (s : State)
  | trap (t : TrapInfo) (s : State)
  /-- the access waits (R276): the instruction is tried again -/
  | wait (s : State)
  /-- the access has issued and waits for its line (R410, R411): the instruction is tried again -/
  | miss (s : State)
deriving Repr

def Res.bind {α β : Type} (r : Res α) (f : α → State → Res β) : Res β :=
  match r with
  | .ok a s => f a s
  | .trap t s => .trap t s
  | .wait s => .wait s
  | .miss s => .miss s

/-- A meaning's answer from a result: the trap is taken, the wait holds the instruction. -/
def Res.out {α : Type} (r : Res α) (f : α → State → Out) : Out :=
  match r with
  | .ok a s => f a s
  | .trap t s => s.trap t
  | .wait s | .miss s => .next s.holdOn

/-- The answer of a scalar instruction with an access: while it waits for its line it holds the link words that its fields
`reads` name, and an entry for the one that it writes (R203). -/
def Res.outHeld {α : Type} (r : Res α) (reads : List RegNo) (write : Option RegNo) (f : α → State → Out) : Out :=
  match r with
  | .ok a s => f a s
  | .trap t s => s.trap t
  | .wait s => .next s.holdOn
  | .miss s => .next (s.holdLinks reads write).holdOn

end Sys2Proof.Machine
end

