-- ==== Sys2Proof/Machine/Access.lean ====
section
/-! DEFINITION. Where an access lands and what it does there: the address map, the windows, translation, the homes and
their leases, ranges and peers (R205 to R230, R242, R383 to R386, R398, R401 to R404, R410, R411, R413, R421, R423). -/

namespace Sys2Proof.Machine

/-! ### Byte stores and their keys

One list holds every byte store of the device. Physical addresses are their own keys; the local memories follow. -/

/-- Byte `off` of core `c`'s scratchpad. -/
def keySpad (c : CoreNo) (off : Nat) : Nat := 2 ^ 53 + c.toNat * 2 ^ 18 + off
/-- Byte `off` of the memory of cluster `k` of the module. -/
def keyCmem (k : Nat) (off : Nat) : Nat := 2 ^ 54 + k * 2 ^ 26 + off
/-- Byte `off` of a die's scratchpad. -/
def keyDspad (d : DieNo) (off : Nat) : Nat := 2 ^ 55 + d.toNat * 2 ^ 25 + off
/-- Byte `off` of lane slice `l` of core `c`. -/
def keyLane (c : CoreNo) (l off : Nat) : Nat := 2 ^ 56 + c.toNat * 2 ^ 15 + l * 2 ^ 12 + off

def spadSize : Nat := 0x30000

/-! ### Who makes an access -/

/-- The slot for which an access is made, its core, its mode and its address space; `eng`: an engine of the slot makes it
(R275, R383). -/
structure Ctx where
  slot : SlotNo
  core : CoreNo
  mode : BitVec 2
  root : Dword
  eng : Bool
  wfmt : Vector Dword 16
  footh : Nat
  /-- FRM and SRSEED, for a store through a decode window (R212) -/
  frm : BitVec 3
  srseed : Dword
  /-- the element of a vector store, for R47 -/
  elem : Nat := 0
  /-- the ordering class of the access (R234) -/
  cls : BitVec 4 := 0
  /-- the command for which an engine makes it: its place in the slot's program order (R232) -/
  cmd : Option Nat := none
  /-- global bytes are read and written at their home slice (R282, R328) -/
  home : Bool := false
deriving DecidableEq, Repr

/-- The effective ROOT of a slot's region (R379, R383). -/
def State.rootOf (s : State) (t : Slot) : Dword := (s.region t.regionH).elim 0 Region.root

def State.ctxOf (s : State) (n : SlotNo) (eng : Bool) : Ctx :=
  let t := s.getSlot n
  { slot := n, core := coreOf n, mode := t.mode, root := s.rootOf t, eng, wfmt := t.wfmt, footh := t.footh.toNat
    frm := t.frm, srseed := t.srseed }

/-- The slot held in place, for an access of class 0. -/
def State.ctx (s : State) : Ctx := s.ctxOf s.slotNo false

/-- The slot held in place, for an access of class `k`. -/
def State.ctxC (s : State) (k : BitVec 4) : Ctx := { s.ctx with cls := k }

/-- ECTL.CLASS as the command captured it: the class of its completion word (R274, R275). -/
def Cmd.ectlClass (m : Cmd) : BitVec 4 := fld m.er[0] 0 4

/-- The ordering class of a command's accesses: ECTL.CLASS (R275), and 0 for the pixels of a commit (R328). -/
def Cmd.cls (m : Cmd) : BitVec 4 := if m.eng = 5 && fld m.word 16 7 = (4 : BitVec 7) then 0 else m.ectlClass

/-- A memory core serves the accesses of the command, or the ticketed commit unit writes its pixels: both act at a line's home
(R282, R328). -/
def Cmd.atHomes (m : Cmd) : Bool := m.eng = 0 || (m.eng = 5 && fld m.word 16 7 = (4 : BitVec 7))

/-- The engine of a command, for the slot that issued it: with the descriptors, the mode and the seed that the command
captured (R273). A store through a decode window draws with i = 0 and that seed, its flags to FFLAGS (DEDUCED, log 22). -/
def State.ctxCmd (s : State) (m : Cmd) : Ctx :=
  let c := s.ctxOf m.slot true
  { c with wfmt := m.wfmt, frm := m.frm, srseed := m.srseed, cls := m.cls, cmd := some m.id, home := m.atHomes }

/-- The engine of a command that stores its completion word (R274). -/
def State.ctxDone (s : State) (m : Cmd) : Ctx := { s.ctxCmd m with cls := m.ectlClass, home := false }

/-- A free value's place: the counter before the draw, and the state after it. -/
def State.draw (s : State) : Nat × State := (s.drawn, { s with drawn := s.drawn + 1 })

/-! ### The local map (R205, R206) -/

inductive Loc where
  /-- alias window w of the own scratchpad -/
  | win (w off : Nat)
  /-- raw bytes of a local memory, from a key -/
  | raw (key : Nat)
  /-- cluster memory -/
  | cmem (key : Nat)
  | glob
  /-- no row of the table holds every byte -/
  | bad
deriving DecidableEq, Repr

def isLocal (va : Dword) : Bool := fld va 48 8 = 0xFE

def locOf (c : CoreNo) (va : Dword) (size : Nat) : Loc :=
  if isLocal va then
    let o := (fld va 0 48).toNat
    if o < 0x1000000 then
      if o % 0x100000 + size ≤ 0x100000 then .win (o / 0x100000) (o % 0x100000) else .bad
    else if o < 0x5000000 then
      let k := (o - 0x1000000) / 0x40000
      let off := (o - 0x1000000) % 0x40000
      if off + size ≤ spadSize then .raw (keySpad (BitVec.ofNat 13 (256 * clusOfCore c + k)) off) else .bad
    else if 0x10000000 ≤ o ∧ o + size ≤ 0x13FC0000 then .cmem (keyCmem (clusOfCore c) (o - 0x10000000))
    else if 0x20000000 ≤ o ∧ o + size ≤ 0x22000000 then .raw (keyDspad (dieOfCore c) (o - 0x20000000))
    else .bad
  else .glob

/-! ### The physical map (R398) -/

inductive Phys where
  | device | host
  /-- an enqueue-window row -/
  | window
  | peer (m : BitVec 6) (off : Nat)
  | none
deriving DecidableEq, Repr

/-- The routing table sends nothing to module `m`: its own number, an entry of 0xFF, or a port that is down (R398). -/
def State.noRoute (s : State) (m : BitVec 6) : Bool :=
  let e := s.nasum.route[m.toNat]'m.isLt
  m = s.nasum.modNo || 8 ≤ e.toNat || !s.nasum.ports.getLsbD e.toNat

def State.phys (s : State) (pa : Nat) : Phys :=
  if pa < 2 ^ 40 then .device
  else if 0x10000000000 ≤ pa ∧ pa < 0x10000080000 then .window
  else if 0x20000000000 ≤ pa ∧ pa < 0x20002000000 then
    if s.noRoute (BitVec.ofNat 6 ((pa - 0x20000000000) / 0x80000)) then .none else .window
  else if 0x400000000000 ≤ pa ∧ pa < 0x800000000000 then
    let m := BitVec.ofNat 6 ((pa - 0x400000000000) / 2 ^ 40)
    if s.noRoute m then .none else .peer m (pa % 2 ^ 40)
  else if 2 ^ 51 ≤ pa ∧ pa < 2 ^ 52 then .host
  else .none

/-- The channel of a device-memory byte (R279). -/
def channelOf (pa : Nat) : Nat := (pa / 2 ^ 11 % 256) ^^^ (pa / 2 ^ 19 % 256)

/-- The home die of a line of device or host memory (R401). -/
def homeDie (pa : Nat) : DieNo :=
  BitVec.ofNat 3 (if pa < 2 ^ 40 then channelOf pa / 32 else pa / 2 ^ 11 % 8)

/-- The memory core that serves a device address: its channel (R279). -/
def memCoreOf (pa : Nat) : Nat := channelOf pa

/-! ### Commutative ranges (R224 to R227) -/

/-- The offset in the range of a physical byte. -/
def CRange.offOf (r : CRange) (pa : Nat) : Option Nat :=
  r.runs.findSome? fun u => if u.pa ≤ pa ∧ pa < u.pa + u.len then some (u.off + (pa - u.pa)) else none

/-- The physical byte at an offset of the range. -/
def CRange.paOf (r : CRange) (off : Nat) : Nat :=
  (r.runs.findSome? fun u => if u.off ≤ off ∧ off < u.off + u.len then some (u.pa + (off - u.off)) else none).getD 0

/-- The first physical byte: no two ranges share it. -/
def CRange.base (r : CRange) : Nat := r.runs.head?.elim 0 Run.pa

/-- The length in bytes. -/
def CRange.len (r : CRange) : Nat := (r.runs.map Run.len).sum

/-- Some byte of a physical access lies in the range. -/
def CRange.touches (r : CRange) (pa size : Nat) : Bool := r.runs.any fun u => u.pa < pa + size && pa < u.pa + u.len

/-- The declared range that holds a physical byte. -/
def State.rangeAt (s : State) (pa : Nat) : Option CRange := s.ranges.find? fun r => (r.offOf pa).isSome

/-- Some byte of the access lies in a declared range. -/
def State.touchesRange (s : State) (pa size : Nat) : Bool := s.ranges.any fun r => r.touches pa size

/-- The element width of a range in bits: the register width for a format of 6 bits, packed below a byte (R34, R225). -/
def CRange.ebits (r : CRange) : Nat := tagReg r.fmt.toNat

/-- add on F and T tags: an exact partial (R58). -/
def CRange.exact (r : CRange) : Bool := r.op = 0 && (tagIsF r.fmt.toNat || tagIsT r.fmt.toNat)

/-- The die of a queue. -/
def queueDie (q : BitVec 12) : DieNo := fld q 9 3

/-- The line is pinned on a die: storage of a bound queue of the die, or partials at their home (R220). -/
def State.pinnedLine (s : State) (d : DieNo) (line : Nat) : Bool :=
  (s.queues.any fun k => queueDie k.num = d && k.store.toNat ≤ line * 64 && line * 64 < k.store.toNat + k.cap * 64)
    || (homeDie (line * 64) = d && s.touchesRange (line * 64) 64)

/-! ### Homes, slices and leases (R222, R223, R401 to R404) -/

def lease : Nat := 64

def State.home (s : State) (line : Nat) : HomeLine := aget {} s.homes line
def State.setHome (s : State) (line : Nat) (h : HomeLine) : State := { s with homes := aset s.homes line h }

def State.sliceOf (s : State) (d : DieNo) (line : Nat) : Option SliceCopy :=
  s.slices.find? fun c => c.die = d ∧ c.line = line
def State.dropSlice (s : State) (d : DieNo) (line : Nat) : State :=
  { s with slices := s.slices.filter fun c => ¬(c.die = d ∧ c.line = line) }
def State.putSlice (s : State) (c : SliceCopy) : State :=
  { (s.dropSlice c.die c.line) with slices := c :: (s.dropSlice c.die c.line).slices }

/-- An access is performed at the die, or a message is addressed to it: it is in use, and leaves IDLE (R449). -/
def State.touchDie (s : State) (d : DieNo) : State :=
  s.modDie d fun e => { e with busyAt := e.cycle, power := if e.power = .idle then .active else e.power }

/-- A message to a die is lost with its seam (R421). -/
def State.messageDie (s : State) (d : DieNo) : State := if (s.die d).lost then s else s.touchDie d

/-- A die leaves the sharers of a line. -/
def State.unshare (s : State) (d : DieNo) (line : Nat) : State :=
  let h := s.home line
  s.setHome line { h with shr := h.shr &&& ~~~(1#8 <<< d.toNat) }

/-- DT and MT take in a timestamp that a slice of die `d` assigns (R239, R404). -/
def State.riseTime (s : State) (d : DieNo) (wts : Nat) : State :=
  let s := s.modDie d fun e => { e with dt := max e.dt wts }
  { s with mt := max s.mt wts }

/-- CLKTS moved to at least `t`; any change restarts the count of R223. -/
def Core.clkTo (c : Core) (t : Nat) : Core :=
  if c.clkts < t then { c with clkts := t, clkIdle := 0 } else c

/-- The owner's copy returns its data and timestamps to the home and becomes S, or is dropped (R403). Where the home slice does
not hold the line, its memory core takes the data (R281). -/
def State.recallOwner (s : State) (line : Nat) (drop : Bool) : State :=
  let h := s.home line
  if h.st = .modified then
    match s.sliceOf h.own line with
    | some c =>
      let s := s.touchDie h.own
      let s := s.setHome line { h with wts := c.wts, rts := c.rts, st := if drop then .inv else .shared, written := h.held,
                                       shr := if drop then h.shr else h.shr ||| (1#8 <<< h.own.toNat) }
      if drop then s.dropSlice h.own line else s.putSlice { c with owned := false }
    | none => s.setHome line { h with st := .inv }
  else s

/-- Every slice copy of the line but die `d`'s is dropped (R403). -/
def State.invalidate (s : State) (d : DieNo) (line : Nat) : State :=
  let h := s.home line
  let s := (s.slices.filter fun c => c.line = line ∧ c.die ≠ d ∧ c.owned = false).foldl (fun s c => s.touchDie c.die) s
  let s := { s with slices := s.slices.filter fun c => ¬(c.line = line ∧ c.die ≠ d ∧ c.owned = false) }
  s.setHome line { h with shr := h.shr &&& (1#8 <<< d.toNat) }

/-- Every slice copy of a line is dropped: its home alone holds it. -/
def State.onlyHome (s : State) (line : Nat) : State :=
  let s := (s.invalidate (homeDie (line * 64)) line).recallOwner line true
  s.setHome line { s.home line with shr := 0, st := .inv }

/-- The lines of a run. -/
def Run.lines (u : Run) : List Nat := (List.range (u.len / 64)).map fun i => u.pa / 64 + i

/-- The bytes that the partials of one line of a range take (R220, R225, R255). -/
def CRange.lineBytes (r : CRange) : Nat :=
  if r.exact then 512 / max 1 r.ebits * (partialWidth r.fmt.toNat / 8) else 64

/-- The pinned bytes of a range on a die. -/
def CRange.pinned (r : CRange) (d : DieNo) : Nat :=
  ((r.runs.flatMap Run.lines).filter fun l => homeDie (l * 64) = d).length * r.lineBytes

/-- The pinned queue storage of a die, and all that is pinned there (R220). -/
def State.pinnedQueues (s : State) (d : DieNo) : Nat :=
  ((s.queues.filter fun q => queueDie q.num = d).map fun q => q.cap * 64).sum
def State.pinned (s : State) (d : DieNo) : Nat := s.pinnedQueues d + (s.ranges.map fun r => r.pinned d).sum

/-- The lines that a die's shared cache holds: what is pinned there, the other lines of its homes, and copies of others (R220,
R281). -/
def State.cachedLines (s : State) (d : DieNo) : Nat :=
  (s.pinned d + 63) / 64 + (s.slices.filter fun c => c.die = d && !s.pinnedLine d c.line).length
    + (s.homes.filter fun p => p.2.held && homeDie (p.1 * 64) = d && !s.pinnedLine d p.1).length

/-- 96 MiB of 64-byte lines (R1, R220). -/
def cacheLines : Nat := 96 * 2 ^ 20 / 64

/-- The decided cells of a line that a die holds copies of are gone with its slice's copy of the line (R434). -/
def State.dropCells (s : State) (d : DieNo) (line : Nat) : State :=
  { s with cells := s.cells.filter fun c => ¬(c.die = d ∧ c.pa / 64 = line) }

/-- A copy leaves the slice of a die that is not the line's home, with the die's decided cells (R403, R434); the home, which
learns of it over the seam, is in use (R449). -/
def State.dropCopy (s : State) (c : SliceCopy) : State :=
  let s := (s.dropCells c.die c.line).touchDie (homeDie (c.line * 64))
  if c.owned then s.recallOwner c.line true else (s.dropSlice c.die c.line).unshare c.die c.line

/-- A line leaves its home slice; where it was written, its memory core writes it back (R281). -/
def State.leaveHome (s : State) (line : Nat) : State := s.setHome line { s.home line with held := false, written := false }

/-- A line of host memory (R398). -/
def hostLine (line : Nat) : Bool := 2 ^ 45 ≤ line && line < 2 ^ 46

/-- The bytes of a line. -/
def State.lineData (s : State) (line : Nat) : BitVec 512 := BitVec.ofNat 512 (s.mem.read (line * 64) 64)

/-- A host-memory line leaves its proxy home: no die keeps a copy, and the host is told (R410). -/
def State.evictHost (s : State) (line : Nat) : State :=
  let dirty := (s.home line).hostSt = .modified
  let s := (s.onlyHome line).leaveHome line
  (s.setHome line { s.home line with hostSt := .inv }).send
    (.hostEvict line (if dirty then some (s.lineData line) else none))

/-- A line leaves its home slice (R220, R281, R410). -/
def State.evictHome (s : State) (line : Nat) : State :=
  if hostLine line && (s.home line).hostSt ≠ .inv then s.evictHost line else s.leaveHome line

/-- The unpinned line that was brought in first leaves a die's shared cache (R220). -/
def State.evictOne (s : State) (d : DieNo) : State :=
  match (s.slices.filter fun c => c.die = d && !s.pinnedLine d c.line).getLast? with
  | some c => s.dropCopy c
  | none =>
    match (s.homes.filter fun p => p.2.held && homeDie (p.1 * 64) = d && !s.pinnedLine d p.1).head? with
    | some p => (s.dropCells d p.1).evictHome p.1
    | none => s

/-- Room for a line in a die's shared cache: where it is full, a line leaves it (R1, R220). -/
def State.makeRoom (s : State) (d : DieNo) : State :=
  if s.cachedLines d < cacheLines then s else s.evictOne d

/-- The shared cache of a die after storage has been pinned there: as many lines leave it as it no longer has room for (R1,
R220). -/
def State.fitCache (s : State) (d : DieNo) : State :=
  (List.range (s.cachedLines d - cacheLines)).foldl (fun s _ => s.evictOne d) s

/-- The line is in its home slice: a miss has its memory core read it from memory (R281). `wr`: it is written. -/
def State.fillHome (s : State) (line : Nat) (wr : Bool) : State :=
  let s := (s.touchDie (homeDie (line * 64)))
  let s := if (s.home line).held then s else s.makeRoom (homeDie (line * 64))
  let h := s.home line
  s.setHome line { h with held := true, written := h.written || wr }

/-- A read of a line by die `d` at logical time `t`, not served by an L1 copy (R403): the timestamps it receives. -/
def State.readHome (s : State) (d : DieNo) (line t : Nat) : State × Nat × Nat :=
  let hd := homeDie (line * 64)
  let fromHome (s : State) : State × Nat × Nat :=
    let s := (s.recallOwner line false).fillHome line false
    let h := s.home line
    let rts := max h.rts (max (h.wts + lease) (t + lease))
    if d = hd then (s.setHome line { h with rts := rts }, h.wts, rts)
    else
      let s := s.setHome line { h with rts := rts, st := .shared, shr := h.shr ||| (1#8 <<< d.toNat) }
      ((s.makeRoom d).putSlice { die := d, line := line, owned := false, wts := h.wts, rts := rts }, h.wts, rts)
  if d = hd then fromHome s
  else
    match s.sliceOf d line with
    | some c => if t ≤ c.rts then (s.touchDie d, c.wts, c.rts) else fromHome s
    | none => fromHome s

/-- Die `d` becomes the one that performs the line's stores (R403). -/
def State.upgrade (s : State) (d : DieNo) (line : Nat) : State :=
  let hd := homeDie (line * 64)
  match s.sliceOf d line with
  | some ⟨_, _, true, _, _⟩ => s
  | _ =>
    let s := ((s.invalidate d line).recallOwner line true).fillHome line false
    let h := s.home line
    if d = hd then s.setHome line { h with st := .inv, shr := 0 }
    else
      let s := s.setHome line { h with st := .modified, own := d, shr := 0 }
      (s.makeRoom d).putSlice { die := d, line := line, owned := true, wts := h.wts, rts := h.rts }

/-- The logical time of a write to a line by die `d` at time `t` (R222, R403): the line takes a new WTS. -/
def State.stampWrite (s : State) (d : DieNo) (line t : Nat) : State × Nat :=
  let s := s.upgrade d line
  if d = homeDie (line * 64) then
    let s := s.fillHome line true
    let h := s.home line
    let wts := max t (h.rts + 1)
    ((s.setHome line { h with wts := wts, rts := wts }).riseTime d wts, wts)
  else
    match s.sliceOf d line with
    | some c =>
      let wts := max t (c.rts + 1)
      (((s.touchDie d).putSlice { c with wts := wts, rts := wts }).riseTime d wts, wts)
    | none => (s, t)

/-- A write of the hardware waits at the line's home. -/
def State.hasDeferred (s : State) (line : Nat) : Bool := s.deferred.any fun w => w.pa / 64 = line

/-- The host may hold the line (R411): the home sends a back-invalidation and the access waits for its response, as it does
behind a write of the hardware that waits for it (R163). -/
def State.hostHolds (s : State) (line : Nat) (wr : Bool) : Bool :=
  let h := s.home line
  h.host && (wr || h.hostMod || s.hasDeferred line)

def State.sendBisnp (s : State) (line : Nat) (wr : Bool) : State :=
  if s.bisnp.contains line then s
  else { s with bisnp := s.bisnp ++ [line], outbox := s.outbox ++ [.bisnp line wr] }

/-- The proxy home of a host-memory line does not hold it as an access needs it: the access waits for the host's answer
(R410). -/
def State.hostMissing (s : State) (pa : Nat) (wr : Bool) : Bool :=
  2 ^ 51 ≤ pa && (match (s.home (pa / 64)).hostSt with
    | .inv => true
    | .shared => wr
    | .modified => false)

def State.sendHostReq (s : State) (line : Nat) (own : Bool) : State :=
  if s.fills.contains line then s
  else { s with fills := s.fills ++ [line], outbox := s.outbox ++ [.hostReq line own] }

/-- A step that waits has no effect but the messages it sent (R410, R411). -/
def State.keepWaits (s0 s : State) : State := { s0 with bisnp := s.bisnp, fills := s.fills, outbox := s.outbox }

/-- The line is POISON: its home is lost, or it was lost with a die that held it (R421). -/
def State.poisoned (s : State) (line : Nat) : Bool := s.poison.contains line || (s.die (homeDie (line * 64))).lost

/-- An access to a POISON line: its home, which answers with the indication, is in use (R423, R449). -/
def State.poisonAt {α : Type} (s : State) (va : Dword) (line : Nat) : Res α :=
  .trap { cause := causePoison, tval := va } (s.messageDie (homeDie (line * 64)))

/-- What the accesses to a line carry on. -/
def State.mark (s : State) (line : Nat) : Mark := aget {} s.marks line
def State.setMark (s : State) (line : Nat) (m : Mark) : State := { s with marks := aset s.marks line m }

/-- Core `c` has read a line whose value has the timestamp `wts`: its later accesses come after the stores that the writer
had seen. A later store to the line comes after the read, by its WTS where that lies above `rts` (R222, R233, log 106). -/
def State.noteRead (s : State) (c : CoreNo) (line wts rts : Nat) : State :=
  let m := s.mark line
  let t := max (s.getCore c).seen (max wts m.w)
  let s := s.modCore c fun k => { k with seen := t }
  if max rts m.r < t then s.setMark line { m with r := t } else s

/-- Core `c` has written a line, with the timestamp `wts`: the store comes after all that the core, the line's writers and
its readers had seen (R222, R233, log 106). -/
def State.noteWrite (s : State) (c : CoreNo) (line wts : Nat) : State :=
  let m := s.mark line
  let t := max (s.getCore c).seen (max wts (max m.w m.r))
  let s := s.modCore c fun k => { k with seen := t }
  if max wts m.w < t then s.setMark line { m with w := t } else s

/-- The core's L1 with a copy at its head, at most 8 of a set (R221). -/
def l1Insert (l : List L1Line) (c : L1Line) : List L1Line :=
  let l := l.filter fun k => k.line ≠ c.line
  let same := l.filter fun k => k.line % 128 = c.line % 128
  let keep := (same.take 7).map L1Line.line
  c :: l.filter fun k => k.line % 128 ≠ c.line % 128 || keep.contains k.line

/-- The line of an element of a range. -/
def CRange.elemLine (r : CRange) (e : Nat) : Nat := r.paOf (e * r.ebits / 8) / 64

/-- The latest of a time and those of the given U copies. -/
def latest (us : List UElem) (t : Nat) : Nat := us.foldl (fun m u => max m u.ts) t

/-- The U copies of a core: the range, the line, and the time of its latest contribution. -/
def State.uLines (s : State) (c : CoreNo) : List (CRange × Nat × Nat) :=
  s.ranges.flatMap fun r =>
    let us := r.ucopies.filter fun u => u.core = c
    (us.map fun u => r.elemLine u.elem).eraseDups.map fun l => (r, l, latest (us.filter fun u => r.elemLine u.elem = l) 0)

/-- The line slots that the U copy of a line takes: as many as its partials need (R225). -/
def CRange.uSlots (r : CRange) : Nat := (r.lineBytes + 63) / 64
def State.uSlots (s : State) (c : CoreNo) : Nat := ((s.uLines c).map fun p => p.1.uSlots).sum

/-- 64 KiB of 64-byte lines (R221). -/
def l1Lines : Nat := 1024

/-- The L1 copies for which a core's U copies leave room, the most recently used (R221, R225, log 107). -/
def State.l1Fit (s : State) (c : CoreNo) (l : List L1Line) : List L1Line := l.take (l1Lines - s.uSlots c)

/-- The copy may serve a load of the core: its lease has not ended (R222), and no store that the core has learned of through
a local memory came after it (R233, log 106). -/
def Core.serves (k : Core) (e : L1Line) : Bool := k.clkts ≤ e.rts && k.seen ≤ e.rts

/-- The read of a global line for core `c` (R222), by way of a slice of die `d`: the data it sees. `l1`: an L1 copy may
serve it; `alloc`: it installs one (R221). -/
def State.readLineAt (s : State) (d : DieNo) (c : CoreNo) (line : Nat) (l1 alloc : Bool) : State × BitVec 512 :=
  let k := s.getCore c
  match if l1 then k.l1.find? (fun e => e.line = line ∧ k.serves e) else none with
  | some e => (s.modCore c fun k => { (k.clkTo e.wts) with seen := max k.seen e.seen, l1 := l1Insert k.l1 e }, e.data)
  | none =>
    let (s, wts, rts) := s.readHome d line k.clkts
    let data := s.lineData line
    let e : L1Line := { line, data, wts, rts, seen := max wts (s.mark line).w }
    (((s.noteRead c line wts rts).modCore c fun k =>
      { (k.clkTo wts) with l1 := if l1 && alloc then s.l1Fit c (l1Insert k.l1 e) else k.l1 }), data)

/-- The read by way of the core's own die. -/
def State.readLine (s : State) (c : CoreNo) (line : Nat) (l1 alloc : Bool) : State × BitVec 512 :=
  s.readLineAt (dieOfCore c) c line l1 alloc

/-- The die whose slice performs an access to a global line: the core's own, or the line's home for a memory core (R282,
R403). -/
def Ctx.dieFor (c : Ctx) (pa : Nat) : DieNo := if c.home then homeDie pa else dieOfCore c.core

/-- The write of `n` bytes at a physical address for core `c`, performed at a slice of die `d` (R222): the core's own copy
takes the data and the new timestamps. -/
def State.writeLineAt (s : State) (d : DieNo) (c : CoreNo) (pa n v : Nat) : State :=
  let line := pa / 64
  let (s, wts) := s.stampWrite d line (s.getCore c).clkts
  let s := { s with mem := s.mem.write pa n v }.noteWrite c line wts
  let data := s.lineData line
  s.modCore c fun k =>
    { (k.clkTo wts) with
      l1 := k.l1.map fun e => if e.line = line then { line, data, wts, rts := wts, seen := k.seen } else e }

/-- The write performed at the line's home or owner slice. -/
def State.writeLine (s : State) (c : CoreNo) (pa n v : Nat) : State := s.writeLineAt (dieOfCore c) c pa n v

/-! ### Translation (R383 to R386) -/

/-- The page-fault cause of an access (R373). -/
def pfCause (k : AccessKind) : BitVec 16 :=
  match k with
  | .fetch => causePfFetch
  | .read => causePfLoad
  | .write => causePfStore

def pageFault (k : AccessKind) (va : Dword) (level reason : Nat) : TrapInfo :=
  { cause := pfCause k, tval := va, txval := BitVec.ofNat 64 (level * 16 + reason) }

def addressTrap (va : Dword) : TrapInfo := { cause := causeAddress, tval := va }
def misalignedTrap (va : Dword) : TrapInfo := { cause := causeMisaligned, tval := va }
def poisonTrap (va : Dword) : TrapInfo := { cause := causePoison, tval := va }

/-- Permission at a leaf (R385). -/
def pteAllows (mode : BitVec 2) (k : AccessKind) (pte : Dword) : Bool :=
  let u := pte.getLsbD 5
  match k with
  | .fetch => pte.getLsbD 4 && (if mode = 0 then u else !u)
  | .read => pte.getLsbD 2 && (mode ≠ 0 || u)
  | .write => pte.getLsbD 3 && (mode ≠ 0 || u)

/-- The format check of an entry at a level (R384, reason 3). -/
def pteMalformed (level : Nat) (pte : Dword) : Bool :=
  let leaf := pte.getLsbD 1
  let ppn := (fld pte 12 40).toNat
  fld pte 60 4 ≠ 0 || fld pte 9 3 ≠ 0
    || (leaf && 3 ≤ level) || (!leaf && level = 0)
    || (!leaf && fld pte 2 7 ≠ 0)
    || (leaf && pte.getLsbD 3 && !pte.getLsbD 2)
    || (leaf && pte.getLsbD 8 && level ≠ 0)
    || (leaf && level = 2 && ppn % 2 ^ 18 ≠ 0) || (leaf && level = 1 && ppn % 2 ^ 9 ≠ 0)
    || (leaf && level = 0 && pte.getLsbD 8 && ppn % 16 ≠ 0)

/-- The physical address a leaf maps (R384). -/
def leafPa (level : Nat) (pte va : Dword) : Nat :=
  let p := (fld pte 12 40).toNat * 4096
  match level with
  | 2 => p + va.toNat % 2 ^ 30
  | 1 => p + va.toNat % 2 ^ 21
  | _ => if pte.getLsbD 8 then p + va.toNat % 2 ^ 16 else p + va.toNat % 2 ^ 12

/-- The index bits of a level (R383). -/
def walkIndex (level : Nat) (va : Dword) : Nat :=
  match level with
  | 4 => (fld va 48 8).toNat
  | 3 => (fld va 39 9).toNat
  | 2 => (fld va 30 9).toNat
  | 1 => (fld va 21 9).toNat
  | _ => (fld va 12 9).toNat

/-- What a walk ends with: the leaf's level and entry. -/
structure Leaf where
  level : Nat
  pte : Dword
deriving DecidableEq, Repr

/-- The walker reads nodes from device memory and host memory (R384, reason 4). -/
def State.nodeOk (s : State) (node : Nat) : Bool :=
  match s.phys node with
  | .device | .host => true
  | _ => false

/-- The walk from a node at `level` (R383 to R386). Entries are read at their home, which may answer POISON; A and D are
set at the entry's home. -/
def State.walk (s : State) (c : Ctx) (va : Dword) (k : AccessKind) : Nat → Nat → Res Leaf
  | level, node =>
    let a := node + 8 * walkIndex level va
    if s.poisoned (a / 64) then s.poisonAt va (a / 64)
    else if s.hostMissing a false then .miss (s.sendHostReq (a / 64) false)
    else if s.hostHolds (a / 64) false then .miss (s.sendBisnp (a / 64) false)
    else
      let (s, _, _) := s.readHome (dieOfCore c.core) (a / 64) (s.getCore c.core).clkts
      let pte : Dword := BitVec.ofNat 64 (s.mem.read a 8)
      if !pte.getLsbD 0 then .trap (pageFault k va level 1) s
      else if pteMalformed level pte then .trap (pageFault k va level 3) s
      else if pte.getLsbD 1 then
        let pa := leafPa level pte va
        if s.phys pa = .none then .trap (pageFault k va level 4) s
        else if !pteAllows c.mode k pte then .trap (pageFault k va level 2) s
        else
          let need : Dword := if k = .write then 0xC0 else 0x40
          if pte &&& need = need then .ok ⟨level, pte⟩ s
          else if s.hostMissing a true then .miss (s.sendHostReq (a / 64) true)
          else if s.hostHolds (a / 64) true then .miss (s.sendBisnp (a / 64) true)
          else
            let pte' := pte ||| need
            let (s, _) := s.stampWrite (dieOfCore c.core) (a / 64) (s.getCore c.core).clkts
            .ok ⟨level, pte'⟩ { s with mem := s.mem.write a 8 pte'.toNat }
      else
        match level with
        | 0 => .trap (pageFault k va 0 3) s
        | l + 1 =>
          let next := (fld pte 12 40).toNat * 4096
          if s.nodeOk next then State.walk s c va k l next else .trap (pageFault k va level 4) s

/-- The TLB entry that maps an address in a space. -/
def tlbFind (l : List TlbEntry) (root va : Dword) : Option TlbEntry :=
  let vpn : BitVec 44 := fld va 12 44
  l.find? fun e =>
    let low := match e.level with
      | 2 => 18
      | 1 => 9
      | _ => if e.pte.getLsbD 8 then 4 else 0
    e.root = root ∧ e.vpn >>> low = vpn >>> low

/-- A walk from ROOT whose leaf the core's TLB then holds (R383). -/
def State.walkFill (s : State) (c : Ctx) (va : Dword) (k : AccessKind) : Res Nat :=
  if c.root = 0 then .trap (pageFault k va 4 1) s
  else if !s.nodeOk c.root.toNat then .trap (pageFault k va 4 4) s
  else
    (s.walk c va k 4 c.root.toNat).bind fun l s =>
      .ok (leafPa l.level l.pte va) (s.modCore c.core fun t =>
        { t with tlb := { root := c.root, vpn := fld va 12 44, level := l.level, pte := l.pte } ::
                    t.tlb.filter fun e => !(tlbFind [e] c.root va).isSome })

/-- The physical address of a global address for an access (R383): physical in firmware mode. -/
def State.translate (s : State) (c : Ctx) (va : Dword) (k : AccessKind) : Res Nat :=
  if c.mode = 2 then
    if 2 ^ 52 ≤ va.toNat then .trap (addressTrap va) s
    else if s.phys va.toNat = .none then .trap (addressTrap va) s
    else .ok va.toNat s
  else
    match tlbFind (s.getCore c.core).tlb c.root va with
    | some e =>
      let (n, s) := s.draw
      if Config.tlbHolds n && (k ≠ .write || e.pte.getLsbD 7) then
        if s.phys (leafPa e.level e.pte va) = .none then .trap (pageFault k va e.level 4) s
        else if pteAllows c.mode k e.pte then .ok (leafPa e.level e.pte va) s
        else .trap (pageFault k va e.level 2) s
      else s.walkFill c va k
    | none => s.walkFill c va k

/-! ### Targets (R242) -/

inductive Target where
  /-- bytes of a local memory that is not compressed -/
  | raw (key : Nat)
  | cmem (key : Nat)
  /-- a decode window: number and offset -/
  | dec (w off : Nat)
  /-- a plane-form window -/
  | plane (w off : Nat)
  /-- device or host memory -/
  | glob (pa : Nat)
  | peer (m : BitVec 6) (pa off : Nat)
deriving DecidableEq, Repr

def wfmtOrigin (w : Dword) : Nat := (fld w 24 18).toNat
def wfmtView (w : Dword) : Nat := (fld w 13 5).toNat
def wfmtStore (w : Dword) : Nat := (fld w 8 5).toNat
def wfmtKind (w : Dword) : Nat := (fld w 0 2).toNat

/-- The core, cluster or die memory, or the physical address, that `size` bytes at an address name (R206, R211, R383,
R398). -/
def State.locate (s : State) (c : Ctx) (va : Dword) (size : Nat) (k : AccessKind) : Res Target :=
  match locOf c.core va size with
  | .bad => .trap (addressTrap va) s
  | .raw key => .ok (.raw key) s
  | .cmem key => .ok (.cmem key) s
  | .win w off =>
    let f := c.wfmt.toList.getD w 0
    match wfmtKind f with
    | 0 =>
      if spadSize < wfmtOrigin f + off + size then .trap (addressTrap va) s
      else .ok (.raw (keySpad c.core (wfmtOrigin f + off))) s
    | 1 => .ok (.dec w off) s
    | _ => .ok (.plane w off) s
  | .glob =>
    (s.translate c va k).bind fun pa s =>
      match s.phys pa with
      | .device | .host => .ok (.glob pa) s
      | .peer m off => if c.eng then .trap (addressTrap va) s else .ok (.peer m pa off) s
      | _ => .trap (addressTrap va) s

/-- The line of a global access is there to be read or written: it is not POISON, its proxy home holds it, and the host does
not (R410, R411, R421, R423). `own`: an access performed at its owner, for which a host line is held in M; `atom`: an atomic,
before which the host gives up its copy whether or not it writes. -/
def State.lineReady (s : State) (va : Dword) (t : Target) (wr : Bool) (own atom : Bool := false) : Res Target :=
  match t with
  | .glob pa =>
    if s.poisoned (pa / 64) then s.poisonAt va (pa / 64)
    else if s.hostMissing pa (wr || own) then .miss (s.sendHostReq (pa / 64) (wr || own))
    else if s.hostHolds (pa / 64) (wr || atom) then .miss (s.sendBisnp (pa / 64) (wr || atom))
    else .ok t s
  | t => .ok t s

/-- The location rules of R242 that an access of `bits` bits fails wherever its line is. `own`: an access that no window
may carry and no declared range may hold (STQ, an atomic, a wait, st.bits); else a store to a declared range of another
element size (R225). -/
def State.landsBadly (s : State) (own : Bool) (k : AccessKind) (size bits : Nat) (t : Target) : Bool :=
  match t with
  | .dec _ _ | .plane _ _ => own
  | .glob pa =>
    if own then s.touchesRange pa size
    else k = .write && (match s.rangeAt pa with
      | some r => bits ≠ r.ebits || (8 ≤ bits && (r.offOf pa).getD 0 * 8 % bits ≠ 0)
      | none => s.touchesRange pa size)
  | _ => false

/-- What an access reaches: its place, the location rules, then its line (R242 before R410, R411 and R423). Where the
access traps after its translation, the A and D bits that the walk set and the TLB entry stay: the spec does not say (log
78). -/
def State.target (s : State) (c : Ctx) (va : Dword) (size : Nat) (k : AccessKind) (own : Bool := false)
    (bits : Nat := 8 * size) (atom : Bool := false) : Res Target :=
  (s.locate c va size k).bind fun t s =>
    if s.landsBadly own k size bits t then .trap (addressTrap va) s else s.lineReady va t (k = .write) own atom

/-- Two accesses of one slot whose classes order them: one class, or class 0 (R234). -/
def classOrder (a b : BitVec 4) : Bool := a = b || a = 0 || b = 0

/-- The form of a graphics command: 0 state, 1 prim, 2 flush, 3 end, 4 commit. -/
def Cmd.gxForm (m : Cmd) : Nat := (fld m.word 16 7).toNat

/-- The form of a plane-engine command: 0 clear, 1 load, 2 mma, 3 store. -/
def Cmd.peOp (m : Cmd) : Nat := (fld m.word 18 2).toNat

/-- An engine register as the command captured it. -/
def Cmd.reg (m : Cmd) (i : Nat) : Dword := m.er.toList.getD i 0

/-- KEXT and the number of steps of a pe.mma. -/
def Cmd.kext (m : Cmd) : Nat := (fld (m.reg 18) 0 32).toNat
def Cmd.ns (m : Cmd) : Nat := (m.kext + 127) / 128

/-- The steps of a pe.mma whose operands have been read and that are still to be performed: two tiles and two runs of scales
each. -/
def Cmd.ahead (m : Cmd) : Nat := m.snap.length / 4

/-- The command still has accesses to perform. gx.state has read its block when it issues, gx.flush and gx.end have none of
their own (R355), no more than pe.clear; what a plane-engine command has read is performed (R277); and a completion word is
stored after the last of a command's accesses (R274). -/
def Cmd.accesses (m : Cmd) : Bool :=
  !m.stopped && !m.finished && (match m.eng.toNat with
    | 3 =>
      match m.peOp with
      | 0 => false
      | 1 => m.snap = []
      | 2 => m.pos + m.ahead < m.ns
      | _ => true
    | 5 => !(m.gxForm = 0 || m.gxForm = 2 || m.gxForm = 3)
    | _ => true)

/-- The command still has to store its completion word, a store of class ECTL.CLASS at its place in the slot's program order
(R274, R275). -/
def Cmd.wordDue (m : Cmd) : Bool := !m.stopped && m.reg 2 ≠ 0

/-- The access comes after a command in the slot's program order: a slot's access after every command that it has issued,
an engine's after those issued before its own. -/
def Ctx.follows (c : Ctx) (m : Cmd) : Bool :=
  m.slot = c.slot && (match c.cmd with
    | some id => m.id < id
    | none => !c.eng)

/-- A remote-reduce packet of the slot that is for this module has not been received: its contributions, stores of class 0,
come before every later access of the slot (R234, R430), and a command that was issued before it has no accesses left. -/
def State.packetDue (s : State) (n : SlotNo) : Bool :=
  s.inbox.any fun e => e.1 = .remoteReducePacket && e.2.red.src = s.nasum.modNo && e.2.red.slot = n

/-- An earlier access of the slot, in a class that comes first, has not been performed, or a fence holds the access back
(R234, R235, R254, R275). -/
def State.outOfTurn (s : State) (c : Ctx) : Bool :=
  (s.cmds.any fun m =>
      c.follows m && ((m.accesses && classOrder m.cls c.cls) || (m.wordDue && classOrder m.ectlClass c.cls)))
    || s.packetDue c.slot
    || (s.getSlot c.slot).fences.any fun f =>
      f.after.getLsbD c.cls.toNat && (match c.cmd with
        | some id => f.next ≤ id
        | none => !c.eng)

def Seg.meets (a b : Seg) : Bool := a.loc = b.loc && a.lo < b.hi && b.lo < a.hi

/-- The ranges of two entries overlap. -/
def Lock.meets (a b : Lock) : Bool := a.segs.any fun x => b.segs.any x.meets

/-- Two entries conflict: their bytes overlap and one of them is a write (R276). -/
def Lock.conflicts (a b : Lock) : Bool := (a.wr || b.wr) && a.meets b

/-- The entries of a command once it has performed its accesses to the ranges `done`: released are those of them in which none
of its other ranges has bytes (R276). -/
def Cmd.entriesAfter (m : Cmd) (done : Lock → Bool) : List Lock :=
  m.locks.filter fun l => !done l || m.locks.any fun k => !done k && k.meets l

/-- An access of the slot itself meets a byte range of one of its commands (R276). -/
def State.meetsEntry (s : State) (c : Ctx) (l : Lock) : Bool :=
  !c.eng && s.cmds.any fun m => m.slot = c.slot && !m.finished && m.locks.any l.conflicts

/-- The access of the slot meets a byte range of one of its commands (R276), or is out of turn. -/
def State.interlocked (s : State) (c : Ctx) (lo size : Nat) (wr loc : Bool) : Bool :=
  s.outOfTurn c || s.meetsEntry c { segs := [{ lo, hi := lo + size, loc }], wr }

/-- The bytes of the own scratchpad, by offset, that the bytes `lo` to `hi` − 1 of an alias window reach: the stored
elements of a decode window, the stored tiles of a plane-form one (R211 to R213, R276). No byte lies past the end. -/
def windowBytes (f : Dword) (lo hi : Nat) : Nat × Nat :=
  let ws := tagMem (wfmtStore f)
  let o := wfmtOrigin f
  let cut (p : Nat × Nat) : Nat × Nat := (min p.1 spadSize, min p.2 spadSize)
  cut <| match wfmtKind f with
  | 0 => (o + lo, o + hi)
  | 1 =>
    let wv := max 1 (tagReg (wfmtView f))
    (o + lo * 8 / wv * ws / 8, o + ((hi * 8 + wv - 1) / wv * ws + 7) / 8)
  | _ =>
    let t := wfmtStore f
    let tb := max 1 (256 * tagP t + (if tagIsF t || tagIsT t then 4096 else 0))
    (o + lo / tb * (256 * ws), o + (hi + tb - 1) / tb * (256 * ws))

/-- The keys that the bytes from `lo` to `hi` − 1 of the local space reach, row by row of R205. -/
def localSegs (c : Ctx) (lo hi : Nat) : List Seg :=
  let row (b n : Nat) (f : Nat → Nat → Nat × Nat) : List Seg :=
    let x := max lo b
    let y := min hi (b + n)
    if x < y then
      let k := f (x - b) (y - b)
      [{ lo := k.1, hi := k.2, loc := true }]
    else []
  let rows (base step count : Nat) : List Nat :=
    let k := (lo - base) / step
    (List.range (min count ((hi - base + step - 1) / step) - k)).map (· + k)
  let cluster := 256 * clusOfCore c.core
  ((rows 0 0x100000 16).flatMap fun w => row (w * 0x100000) 0x100000 fun x y =>
      let b := windowBytes (c.wfmt.toList.getD w 0) x y
      (keySpad c.core b.1, keySpad c.core b.2))
    ++ ((rows 0x1000000 0x40000 256).flatMap fun k => row (0x1000000 + k * 0x40000) spadSize fun x y =>
      (keySpad (BitVec.ofNat 13 (cluster + k)) x, keySpad (BitVec.ofNat 13 (cluster + k)) y))
    ++ row 0x10000000 0x3FC0000 (fun x y => (keyCmem (clusOfCore c.core) x, keyCmem (clusOfCore c.core) y))
    ++ row 0x20000000 0x2000000 (fun x y => (keyDspad (dieOfCore c.core) x, keyDspad (dieOfCore c.core) y))

/-- What the bytes from address `lo` to `hi` − 1 reach: global addresses stand for themselves (R276). -/
def addrSegs (c : Ctx) (lo hi : Nat) : List Seg :=
  let l0 := 0xFE000000000000
  let l1 := 0xFF000000000000
  (if lo < hi && (lo < l0 || l1 < hi) then [{ lo, hi, loc := false }] else [])
    ++ (if l0 < hi && lo < l1 then localSegs c (lo - l0) (min hi l1 - l0) else [])

/-- The key range of the interlock comparison: scratchpad bytes for a local address, the address itself for a global one
(R276). -/
def lockKey (c : Ctx) (t : Target) (va : Dword) (size : Nat) : Nat × Nat × Bool :=
  match t with
  | .raw k | .cmem k => (k, size, true)
  | .dec w off | .plane w off =>
    let b := windowBytes (c.wfmt.toList.getD w 0) off (off + size)
    (keySpad c.core b.1, b.2 - b.1, true)
  | .glob _ | .peer _ _ _ => (va.toNat, size, false)

def State.waits (s : State) (c : Ctx) (t : Target) (va : Dword) (size : Nat) (wr : Bool) : Bool :=
  let (lo, n, loc) := lockKey c t va size
  s.interlocked c lo n wr loc

/-! ### What a range holds (R58, R59, R225, R226) -/

def State.setRange (s : State) (r : CRange) : State :=
  { s with ranges := s.ranges.map fun q => if q.base = r.base then r else q }

def CRange.combine (r : CRange) (a b : Partial) : Partial :=
  let t := r.fmt.toNat
  let w := tagMem t
  if r.exact then
    { acc := wrapS (partialSumBits t) (a.acc + b.acc), nan := a.nan || b.nan, pinf := a.pinf || b.pinf,
      ninf := a.ninf || b.ninf }
  else
    let x := codeOf w a.acc
    let y := codeOf w b.acc
    let pick (isMin : Bool) : Nat :=
      if tagIsF t || tagIsT t then
        let u := decodeTag t x
        let v := decodeTag t y
        let m := if isMin then XV.minNum u v else XV.maxNum u v
        if m.val.isNan then (roundTo t .rne false (.nan false) 0).code
        else if m.val = u && !u.isNan then x else y
      else
        let u : Int := if tagIsN t then x else signedOf w x
        let v : Int := if tagIsN t then y else signedOf w y
        if isMin then (if u ≤ v then x else y) else if v ≤ u then x else y
    let z : Nat :=
      match r.op.toNat with
      | 0 => (x + y) % 2 ^ w
      | 1 => pick true
      | 2 => pick false
      | 3 => x &&& y
      | 4 => x ||| y
      | _ => x ^^^ y
    { acc := z }

/-- A code as a partial (R225, R226). -/
def CRange.ofCode (r : CRange) (code : Nat) : Partial :=
  let t := r.fmt.toNat
  if r.exact then
    let a := Accum.add (partialSumBits t) (tagLambda t) {} (decodeTag t code)
    { acc := a.acc, nan := a.nan, pinf := a.pinf, ninf := a.ninf }
  else { acc := code % 2 ^ tagMem t }

/-- The code that a read of a partial gives (R226, R241): round_to of its value for F and T formats, which leaves a code's
value as it is and makes a NaN canonical. -/
def CRange.codeOf (r : CRange) (p : Partial) : Nat :=
  let t := r.fmt.toNat
  if !r.exact && (tagIsF t || tagIsT t) then
    (roundTo t (rmodeOf r.rm.toNat) false (decodeTag t (Sys2Proof.Machine.codeOf (tagMem t) p.acc)) 0).code
  else if r.exact then
    (roundTo t (rmodeOf r.rm.toNat) false
      (Accum.value (tagLambda t) { acc := p.acc, nan := p.nan, pinf := p.pinf, ninf := p.ninf }).val 0).code
  else (Sys2Proof.Machine.codeOf (tagMem t) p.acc)

/-- The elements of a range's line. -/
def CRange.lineElems (r : CRange) (line : Nat) : List Nat :=
  (List.range (512 / max 1 r.ebits)).map fun i => (r.offOf (line * 64)).getD 0 * 8 / max 1 r.ebits + i

/-- The partials of a range with those of the given U copies added (R226). -/
def CRange.gather (r : CRange) (us : List UElem) : List Partial :=
  us.foldl (fun ps u => ps.set u.elem (r.combine (ps.getD u.elem {}) u.part)) r.parts

/-- The U copy of a line leaves a core's L1: the home adds it to its partials, as a read of the line would (R225, R226, log
107). -/
def State.drainU (s : State) (r : CRange) (c : CoreNo) (line : Nat) : State :=
  let mine := r.ucopies.filter fun u => u.core = c && r.elemLine u.elem = line
  let rest := r.ucopies.filter fun u => !(u.core = c && r.elemLine u.elem = line)
  let d := dieOfCore c
  let s := ((s.touchDie d).fillHome line true).setRange { r with parts := r.gather mine, ucopies := rest }
  let h := s.home line
  let ts := latest mine h.wts
  let u := if rest.any fun u => dieOfCore u.core = d && r.elemLine u.elem = line then h.u
    else h.u &&& ~~~(1#8 <<< d.toNat)
  (s.setHome line { h with u, wts := ts, rts := max h.rts ts }).riseTime (homeDie (line * 64)) ts

/-- The U copy that was contributed to longest ago. -/
def oldestU (l : List (CRange × Nat × Nat)) : Option (CRange × Nat × Nat) :=
  l.foldl (fun b p => if b.any fun q => q.2.2 ≤ p.2.2 then b else some p) none

/-- While a core's U copies take more than its L1, the one that was contributed to longest ago leaves it, at most `n` of them
(R221, R225, log 107). -/
def State.fitU (c : CoreNo) : Nat → State → State
  | 0, s => s
  | n + 1, s =>
    match if s.uSlots c ≤ l1Lines then none else oldestU (s.uLines c) with
    | some p => State.fitU c n (s.drainU p.1 c p.2.1)
    | none => s

/-- A contribution to element `e` by core `c`'s U copy, which takes its slots of the core's L1 (R221, R225, log 107). It is a
store (R241): its logical time lies above every read of the line so far, the core goes on from it, and the reader that
collects it takes it in (R222, R239, log 97). -/
def State.contribute (s : State) (c : CoreNo) (r : CRange) (e : Nat) (p : Partial) : State :=
  let others := r.ucopies.filter fun u => ¬(u.core = c ∧ u.elem = e)
  let q := match r.ucopies.find? fun u => u.core = c ∧ u.elem = e with
    | some u => r.combine u.part p
    | none => p
  let line := r.elemLine e
  let h := s.home line
  let ts := max (s.getCore c).clkts (h.rts + 1)
  let s := (s.setRange { r with ucopies := { core := c, elem := e, part := q, ts } :: others }).setHome line
    { h with u := h.u ||| (1#8 <<< (dieOfCore c).toNat) }
  let s := (s.noteWrite c line ts).modCore c fun k => k.clkTo ts
  let s := State.fitU c r.uSlots s
  s.modCore c fun k => { k with l1 := s.l1Fit c k.l1 }

/-- A contribution performed at a line's home: the line takes a new logical time, of at least `t` (R222, R241, R404). -/
def State.landAt (s : State) (line t : Nat) : State :=
  let s := s.fillHome line true
  let h := s.home line
  let ts := max t (h.rts + 1)
  (s.setHome line { h with wts := ts, rts := ts }).riseTime (homeDie (line * 64)) ts

/-- The collection of a line's U copies into the home's partials, and the rounded image written to memory (R226); its home
and the dies that hold U copies are in use (R449). -/
def State.collectLine (s : State) (r : CRange) (line : Nat) : State :=
  let es := r.lineElems line
  let us := r.ucopies.filter fun u => es.contains u.elem
  let s := us.foldl (fun s u => s.touchDie (dieOfCore u.core)) s
  let parts := r.gather us
  let r' := { r with parts := parts, ucopies := r.ucopies.filter fun u => !es.contains u.elem }
  let img := es.foldl (fun (v : Nat) e =>
    natSetBits v (e * r.ebits % 512) r.ebits (r.codeOf (parts.getD e {}))) 0
  let s := s.fillHome line true
  let h := s.home line
  let ts := latest us h.wts
  let s := (s.setRange r').setHome line { h with u := 0, wts := ts, rts := max h.rts ts }
  { (s.riseTime (homeDie (line * 64)) ts) with mem := s.mem.write (line * 64) 64 img }

/-! ### Compressed cluster memory (R215, R216) -/

/-- The nonzero 32-byte parts of the 256-byte block that holds a key. -/
def blockParts (m : Memory) (key : Nat) : Nat :=
  let b := key / 256 * 256
  ((List.range 8).filter fun i => m.read (b + 32 * i) 32 ≠ 0).length

/-- The sectors in use in the panel store that holds a key: the nonzero 32-byte parts. -/
def panelUsed (m : Memory) (key : Nat) : Nat :=
  let lo := (key - 2 ^ 54) / 2 ^ 22 * 2 ^ 22 + 2 ^ 54
  (m.foldl (fun (a : Nat × Nat) (c : Host.Cell) =>
    if lo ≤ c.1 && c.1 < lo + 2 ^ 22 && c.1 / 32 ≠ a.1 then (c.1 / 32, a.2 + 1) else a) (0, 0)).2

/-- A write whose need exceeds the panel store's free sectors (R216). -/
def cmemFull (m m' : Memory) (key : Nat) : Bool :=
  let old := blockParts m key
  let new := blockParts m' key
  old < new && 65536 - panelUsed m key < new - old

/-! ### Accesses to local memories -/

/-- An access of core `c` to bytes of a local memory: one of a die's scratchpad keeps the die in use (R449), and the core learns
through the line, or passes on through it, the times of stores (R233, log 106). -/
def State.touchKey (s : State) (c : CoreNo) (k : Nat) (wr : Bool) : State :=
  let s := if 2 ^ 55 ≤ k && k < 2 ^ 56 then s.touchDie (BitVec.ofNat 3 ((k - 2 ^ 55) / 2 ^ 25)) else s
  if wr then s.noteWrite c (k / 64) 0 else s.noteRead c (k / 64) 0 0

/-- An access to a run of bytes, line by line. -/
def State.touchSpan (s : State) (c : CoreNo) (k n : Nat) (wr : Bool) : State :=
  (List.range ((k + n - 1) / 64 + 1 - k / 64)).foldl (fun s i => s.touchKey c (k / 64 * 64 + 64 * i) wr) s

/-! ### Decode and plane-form windows (R212, R213) -/

/-- `n` bits from bit address `bit` of core `c`'s scratchpad. -/
def State.spadBits (s : State) (c : CoreNo) (bit n : Nat) : Nat :=
  s.mem.read (keySpad c (bit / 8)) (n / 8 + 2) / 2 ^ (bit % 8) % 2 ^ n

/-- The magnitude form of a code (R213): the significand S and the exponent e. -/
def magForm (t c : Nat) : Nat × Int :=
  if tagIsF t || tagIsT t then
    match decodeTag t c with
    | .fin _ n d =>
      if n = 0 then (0, 0)
      else
        let e := max (ilog2 n d - ((tagP t : Int) - 1)) (tagLambda64 t)
        ((quotPow n d e).1, e)
    | _ => (0, 0)
  else (c % 2 ^ tagMem t, 0)
where
  /-- λ with f64's: the exponent of its smallest subnormal, which R55 does not list. -/
  tagLambda64 (t : Nat) : Int := if t = 0 then -1074 else tagLambda t

/-- The side entry of a code (R213). -/
def sideEntry (t c : Nat) : Nat :=
  let x := decodeTag t c
  let cls := if x.isNan then 2 else if x.isInf then 1 else if x.isZero then 3 else 0
  b2n ((c % 2 ^ tagMem t).testBit (tagMem t - 1)) * 2 ^ 15 + cls * 2 ^ 13 + codeOf 13 (magForm t c).2

/-- A load of `size` bytes at offset `off` of a plane-form window (R213); the parts of a record or a descriptor, wider than 8
bytes, are performed alike (DESIGN CHOICE, log 102). -/
def State.planeLoad (s : State) (c : Ctx) (f : Dword) (va : Dword) (off size : Nat) : Res Nat :=
  let t := wfmtStore f
  let p := tagP t
  let ws := tagMem t
  let sided := tagIsF t || tagIsT t
  let tb := 256 * p + (if sided then 4096 else 0)
  if off % size ≠ 0 then .trap (misalignedTrap va) s
  else
    let tile := off / tb
    let o := off % tb
    let elemBit (r k : Nat) : Nat := wfmtOrigin f * 8 + ((16 * tile + r) * 128 + k) * ws
    let inRange (r k : Nat) : Bool := elemBit r k + ws ≤ spadSize * 8
    let code (r k : Nat) : Nat := s.spadBits c.core (elemBit r k) ws
    let read (r k n : Nat) : State :=
      s.touchSpan c.core (keySpad c.core (elemBit r k / 8)) ((elemBit r k % 8 + n * ws + 7) / 8) false
    if o < 256 * p then
      let j := o / 256
      let r := o % 256 / 16
      let k0 := o % 16 * 8
      let ks := (List.range (8 * size)).map (· + k0)
      if ks.all (inRange r) then
        .ok (ks.foldl (fun v k => v + b2n ((magForm t (code r k)).1.testBit j) * 2 ^ (k - k0)) 0) (read r k0 (8 * size))
      else .trap (addressTrap va) s
    else
      -- side entries, two bytes each; a byte access takes half of one
      let q := o - 256 * p
      let es := (List.range ((q % 2 + size + 1) / 2)).map (· + q / 2)
      if es.all fun e => inRange (e / 128) (e % 128) then
        let v := es.foldl (fun v e => v + sideEntry t (code (e / 128) (e % 128)) * 2 ^ (16 * (e - q / 2))) 0
        .ok (v / 2 ^ (8 * (q % 2)) % 2 ^ (8 * size)) (read (q / 2 / 128) (q / 2 % 128) es.length)
      else .trap (addressTrap va) s

/-- The stored bit address of a decode-window access, or its trap (R212). -/
def decodeWindow (f : Dword) (va : Dword) (off size : Nat) : Except TrapInfo Nat :=
  let wv := tagReg (wfmtView f)
  let ws := tagMem (wfmtStore f)
  if size * 8 ≠ wv ∨ off * 8 % wv ≠ 0 then .error (misalignedTrap va)
  else
    let bit := wfmtOrigin f * 8 + off * 8 / wv * ws
    if spadSize * 8 < bit + ws then .error (addressTrap va) else .ok bit

/-! ### Plain loads and stores -/

/-- The peer port that the routing table names for a module (R412). -/
def State.portTo (s : State) (m : BitVec 6) : BitVec 3 := BitVec.ofNat 3 (s.nasum.route[m.toNat]'m.isLt).toNat

/-- A peer packet sent, and the state (R412, R413). -/
def State.sendPeer (s : State) (m : BitVec 6) (slot : SlotNo) (pa : Nat) (op : PeerOp) (cls : BitVec 4 := 0) : State :=
  s.send (.peer (s.portTo m) { dest := m, src := s.nasum.modNo, slot, pa, op, cls })

/-- The physical address of a peer's device byte (R398). -/
def peerPa (m : BitVec 6) (off : Nat) : Nat := 0x400000000000 + m.toNat * 2 ^ 40 + off

/-- A peer reports that a line of its memory is POISON: the decided cells of the line that this module's dies hold copies of are
gone (R423, R434). -/
def State.peerLost (s : State) (m : BitVec 6) (off : Nat) : State :=
  { s with cells := s.cells.filter fun c => c.pa / 64 ≠ peerPa m off / 64 }

/-- An access at a peer that answers: its value, or POISON (R413, R423). -/
def State.askPeer (s : State) (m : BitVec 6) (slot : SlotNo) (pa : Nat) (va : Dword) (op : PeerOp)
    (cls : BitVec 4 := 0) : Res Nat :=
  let (n, s) := (s.sendPeer m slot pa op cls).draw
  if Config.peerPoison n then .trap (poisonTrap va) (s.peerLost m pa) else .ok (Config.peerReply n).toNat s

/-- A store at a peer: it awaits its acknowledgement, or the peer's home reports POISON (R413, R423). -/
def State.storePeer (s : State) (m : BitVec 6) (slot : SlotNo) (pa : Nat) (va : Dword) (op : PeerOp)
    (cls : BitVec 4 := 0) : Res Unit :=
  let (n, s) := (s.sendPeer m slot pa op cls).draw
  if Config.peerPoison n then .trap (poisonTrap va) (s.peerLost m pa)
  else .ok () (s.modSlot slot fun t => { t with unacked := t.unacked + 1 })

/-- The word that TVAL of an ILLEGAL trap holds for an access: of the command, or of the slot's instruction. -/
def State.wordOf (s : State) (c : Ctx) : BitVec 32 :=
  match c.cmd.bind fun id => (s.cmds ++ s.mcs.map McRun.cmd).find? fun m => m.id = id with
  | some m => m.word
  | none => (s.getSlot c.slot).ir

/-- A plain load of `size` bytes, its address, alignment and permission already in the target (R109, R212, R213, R222,
R225): the value. `foot`: the footprint of R221. -/
def State.loadAt (s : State) (c : Ctx) (t : Target) (va : Dword) (size foot : Nat) : Res Nat :=
  match t with
  | .raw k | .cmem k => .ok (s.mem.read k size) (s.touchKey c.core k false)
  | .dec w off =>
    let f := c.wfmt.toList.getD w 0
    match decodeWindow f va off size with
    | .error e => .trap e s
    | .ok bit =>
      let st := wfmtStore f
      .ok (roundTo (wfmtView f) .rne false (decodeTag st (s.spadBits c.core bit (tagMem st))) 0).code
        (s.touchSpan c.core (keySpad c.core (bit / 8)) ((bit % 8 + tagMem st + 7) / 8) false)
  | .plane w off => s.planeLoad c (c.wfmt.toList.getD w 0) va off size
  | .glob pa =>
    match s.rangeAt pa with
    | some r =>
      let s := s.collectLine r (pa / 64)
      let (s, _) := s.readLineAt (homeDie pa) c.core (pa / 64) false false
      .ok (s.mem.read pa size) s
    | none =>
      let (s, d) := s.readLineAt (c.dieFor pa) c.core (pa / 64) (!c.eng) (foot ≤ c.footh)
      .ok (d.toNat / 2 ^ (8 * (pa % 64)) % 2 ^ (8 * size)) s
  | .peer m _ off =>
    (s.askPeer m c.slot off va (.load size) c.cls).bind fun v s => .ok (v % 2 ^ (8 * size)) s

/-- A plain store (R109, R212, R216, R222, R225). Flags of a decode window's rounding go to the slot's FFLAGS (R212). Where FRM
is no rounding mode and the size, the offset or the range fails too, the model takes MISALIGNED and ADDRESS before ILLEGAL (DESIGN
CHOICE, log 112). -/
def State.storeAt (s : State) (c : Ctx) (t : Target) (va : Dword) (size v : Nat) : Res Unit :=
  match t with
  | .raw k => .ok () { (s.touchKey c.core k true) with mem := s.mem.write k size v }
  | .cmem k =>
    let m := s.mem.write k size v
    if cmemFull s.mem m k then .trap { cause := causeCmemFull, tval := va } s
    else .ok () { (s.touchKey c.core k true) with mem := m }
  | .dec w off =>
    let f := c.wfmt.toList.getD w 0
    match decodeWindow f va off size with
    | .error e => .trap e s
    | .ok bit =>
      let sl := s.getSlot c.slot
      if 6 ≤ c.frm.toNat then .trap { cause := causeIllegal, tval := (s.wordOf c).setWidth 64 } s
      else
        let st := wfmtStore f
        let ws := tagMem st
        let q := roundTo st (rmodeOf c.frm.toNat) false (decodeTag (wfmtView f) v) (srWord c.srseed c.slot c.elem)
        let k := keySpad c.core (bit / 8)
        let n := (bit % 8 + ws + 7) / 8
        let s := (s.touchSpan c.core k n true).setSlot c.slot { sl with fflags := sl.fflags ||| q.flags }
        .ok () { s with mem := s.mem.write k n (natSetBits (s.mem.read k n) (bit % 8) ws q.code) }
  | .plane _ _ => .trap (addressTrap va) s
  | .glob pa =>
    match s.rangeAt pa with
    | some r =>
      let bit := (r.offOf pa).getD 0 * 8
      if size * 8 = r.ebits ∧ bit % r.ebits = 0 then .ok () (s.contribute c.core r (bit / r.ebits) (r.ofCode v))
      else .trap (addressTrap va) s
    | none =>
      if s.touchesRange pa size then .trap (addressTrap va) s else .ok () (s.writeLineAt (c.dieFor pa) c.core pa size v)
  | .peer m _ off =>
    s.storePeer m c.slot off va (.store (bytesOfNat size v)) c.cls

/-- R108 and R206 for an access of `size` bytes: the address's upper byte, its alignment, then where it lands; it waits
for a conflicting command of the slot (R276). -/
def State.reach (s : State) (c : Ctx) (va : Dword) (size : Nat) (k : AccessKind) (own : Bool := false)
    (bits : Nat := 8 * size) (atom : Bool := false) : Res Target :=
  if fld va 56 8 ≠ 0 then .trap (addressTrap va) s
  else if va.toNat % size ≠ 0 then .trap (misalignedTrap va) s
  else
    (s.target c va size k own bits atom).bind fun t s =>
      if s.waits c t va size (k = .write) then .wait s else .ok t s

/-- A load by R108 to R110. -/
def State.load (s : State) (c : Ctx) (va : Dword) (size foot : Nat) : Res Nat :=
  (s.reach c va size .read).bind fun t s => s.loadAt c t va size foot

/-- A store by R108 and R109. -/
def State.store (s : State) (c : Ctx) (va : Dword) (size v : Nat) : Res Unit :=
  (s.reach c va size .write).bind fun t s => s.storeAt c t va size v

/-- The target of an access that no window may carry and no range may hold: STQ, an atomic, a wait (R242). On host memory it
is performed once the line is held in M (R410). -/
def State.reachOwner (s : State) (c : Ctx) (va : Dword) (size : Nat) (k : AccessKind) (atom : Bool := false) : Res Target :=
  s.reach c va size k true (8 * size) atom

/-- Where an access at its owner is performed: host memory at its proxy home, which alone then holds the line (R410); any
other line by way of the core's own die (R403). -/
def State.ownerDie (s : State) (c : Ctx) (pa : Nat) : State × DieNo :=
  if 2 ^ 51 ≤ pa then (s.onlyHome (pa / 64), homeDie pa) else (s, dieOfCore c.core)

/-- The bytes at an owner, read there and never in an L1 (R222): the read half of an atomic or of a wait. -/
def State.readOwner (s : State) (c : Ctx) (t : Target) (size : Nat) : Nat × State :=
  match t with
  | .raw k | .cmem k => (s.mem.read k size, s.touchKey c.core k false)
  | .glob pa =>
    let (s, d) := s.ownerDie c pa
    let (s, _) := s.readLineAt d c.core (pa / 64) false false
    (s.mem.read pa size, s)
  | _ => (0, s)

/-- The read half of an atomic that writes nothing (R222, R403): it is performed where the atomic is, at the slice that then
performs the line's stores, with the timestamps of a home-served read. -/
def State.readAtomic (s : State) (c : Ctx) (pa size : Nat) : Nat × State :=
  let (s, d) := s.ownerDie c pa
  let s := (s.touchDie d).upgrade d (pa / 64)
  match if d = homeDie pa then none else s.sliceOf d (pa / 64) with
  | none => (s.mem.read pa size, (s.readLineAt d c.core (pa / 64) false false).1)
  | some k =>
    let t := (s.getCore c.core).clkts
    let rts := max k.rts (max (k.wts + lease) (t + lease))
    let s := (s.putSlice { k with rts }).noteRead c.core (pa / 64) k.wts rts
    (s.mem.read pa size, s.modCore c.core fun q => q.clkTo k.wts)

/-- The write half at an owner, an STQ among them; it traps where it needs more sectors than are free (R216). -/
def State.writeOwner (s : State) (c : Ctx) (t : Target) (va : Dword) (size v : Nat) : Res Unit :=
  match t with
  | .glob pa =>
    let (s, d) := s.ownerDie c pa
    .ok () (s.writeLineAt d c.core pa size v)
  | t => s.storeAt c t va size v

/-- The access is a store through a decode window, which rounds (R212). -/
def State.storeRounds (c : Ctx) (va : Dword) (size : Nat) : Bool :=
  match locOf c.core va size with
  | .win w _ => wfmtKind (c.wfmt.toList.getD w 0) = 1
  | _ => false

/-! ### Instruction fetch (R452) -/

/-- The word at a key, in the line that holds it. -/
def wordOfLine (d : BitVec 512) (k : Nat) : BitVec 32 := BitVec.ofNat 32 (d.toNat / 2 ^ (8 * (k % 64)))

/-- The slot has fetched line `l`: it may have fetched ahead every instruction of it, and of the next line `nx` of its
page. -/
def State.keepLine (s : State) (l : Nat) (d : BitVec 512) : State :=
  let a := (l, d) :: s.slot.ahead.filter fun e => e.1 ≠ l
  let b := if l % 64 = 63 || a.any (fun e => e.1 = l + 1) then a else (l + 1, s.lineData (l + 1)) :: a
  s.upd fun t => { t with ahead := b }

/-- 32 KiB of 64-byte lines (R1). -/
def icacheLines : Nat := 512

/-- A line of global code through the core's instruction cache. -/
def State.codeLine (s : State) (l : Nat) : BitVec 512 × State :=
  let fill (s : State) : BitVec 512 × State :=
    let (s, wts, rts) := s.readHome s.dieNo l s.core.clkts
    let d := s.lineData l
    (d, s.updCore fun k => { k with icache := ({ line := l, data := d, wts, rts } :: k.icache.filter fun e => e.line ≠ l).take icacheLines })
  match s.core.icache.find? fun e => e.line = l ∧ s.core.clkts ≤ e.rts with
  | some e =>
    let (n, s) := s.draw
    if Config.icacheHolds n then (e.data, s) else fill s
  | none => fill s

/-- What the slot fetched ahead of the line of key `k`, if it did and issues it now. -/
def State.fromAhead (s : State) (k : Nat) : Option (BitVec 32) × State :=
  match s.slot.ahead.find? fun e => e.1 = k / 64 with
  | some e =>
    let (n, s) := s.draw
    (if Config.fetchedAhead n then some (wordOfLine e.2 k) else none, s)
  | none => (none, s)

/-- The four bytes at an address, for the slot held in place: fetched ahead, or fetched now. -/
def State.fetchAt (s : State) (pc : BitVec 56) : Res (BitVec 32) :=
  let c := s.ctx
  let va : Dword := pc.setWidth 64
  (s.target c va 4 .fetch).bind fun t s =>
    match t with
    | .raw k | .cmem k =>
      let (w, s) := s.fromAhead k
      match w with
      | some w => .ok w s
      | none => .ok (BitVec.ofNat 32 (s.mem.read k 4)) (s.keepLine (k / 64) (s.lineData (k / 64)))
    | .glob pa =>
      let (w, s) := s.fromAhead pa
      match w with
      | some w => .ok w s
      | none =>
        let (d, s) := s.codeLine (pa / 64)
        .ok (wordOfLine d pa) (s.keepLine (pa / 64) d)
    | _ => .trap (addressTrap va) s

/-! ### Ordering events (R239, R405) -/

/-- CLKTS takes in DT, or MT for scope DEVICE and SYSTEM: an acquire or fence of scope `sc` (R239, R405). -/
def State.syncTime (s : State) (sc : Nat) : State :=
  if sc ≤ 1 then s
  else
    let t := if sc ≤ 4 then (s.die s.dieNo).dt else s.mt
    s.updCore fun c => c.clkTo t

end Sys2Proof.Machine
end

