-- ==== Sys2Proof/Machine/Flags.lean ====
section
/-! DEFINITION. The flags: FLAGS (R19), FFLAGS and the rounding mode (R20, R121), SRSEED (R48). -/

namespace Sys2Proof.Machine

/-- FLAGS after a scalar compare with result t (R19): ALL, SOME, NONE from bit 2 down. -/
def scalarFlags (t : Bool) : BitVec 3 := if t then 6 else 1

def State.setFlags (s : State) (f : BitVec 3) : State := s.upd fun t => { t with flags := f }

/-- FLAGS after a vector compare over the results of the active elements (R19). -/
def vectorFlags (ts : List Bool) : BitVec 3 :=
  BitVec.ofNat 3 (4 * b2n (ts.all id) + 2 * b2n (ts.any id) + b2n (!ts.any id))

/-- Sticky flags set (R20). -/
def State.orFflags (s : State) (f : BitVec 5) : State := s.upd fun t => { t with fflags := t.fflags ||| f }

/-- The mode of a 3-bit selector, 7 meaning FRM (R69); none where FRM holds a reserved value (R20). -/
def State.rmode (s : State) (r : Nat) : Option RMode :=
  let v := if r = 7 then s.slot.frm.toNat else r
  if v < 6 then some (rmodeOf v) else none

/-- SRSEED after an instruction that rounded with RSR (R48). -/
def State.bumpSeed (s : State) (m : RMode) : State :=
  if m = .rsr then s.upd fun t => { t with srseed := t.srseed + 1 } else s

/-- The random word of R47 for element i, under the SRSEED of program order. -/
def State.rword (s : State) (i : Nat) : Nat := srWord s.slot.srseed s.slotNo i

end Sys2Proof.Machine
end

