-- ==== Sys2Proof/Machine/Operands.lean ====
section
/-! DEFINITION. Operand forms: immediates, the modifiers of a prefix pair, scalar floating-point operands, vector groups,
elements and masks (R10, R11, R22, R23, R64, R83 to R87, R120, R129 to R131). -/

namespace Sys2Proof.Machine

/-! ### Immediates (R64) -/

/-- A signed immediate. -/
def sext {n : Nat} (i : BitVec n) : Dword := i.signExtend 64

/-- A branch displacement: 4 times the signed field. -/
def disp {n : Nat} (i : BitVec n) : BitVec 56 := i.signExtend 56 * 4

/-! ### The modifiers of a prefix pair (R85, R87) -/

structure Mods where
  sat : Bool
  clamp : Bool
  nega : Bool
  negb : Bool
  absa : Bool
  absb : Bool
  scale : Int
deriving DecidableEq, Repr

/-- The modifiers in force: none outside a pair. -/
def Slot.mods (t : Slot) : Option Mods :=
  if t.pfx = 0 then none
  else some { sat := t.pfx.getLsbD 25, clamp := t.pfx.getLsbD 24, nega := t.pfx.getLsbD 23, negb := t.pfx.getLsbD 22,
              absa := t.pfx.getLsbD 21, absb := t.pfx.getLsbD 20, scale := (fld t.pfx 13 7).toInt }

/-- An operand with its absolute value taken, then its sign changed. -/
def modXV (ab ng : Bool) (x : XV) : XV :=
  let x := if ab then x.abs else x
  if ng then x.negate else x

def modInt (ab ng : Bool) (x : Int) : Int :=
  let x : Int := if ab then x.natAbs else x
  if ng then -x else x

/-- floor(y · 2^k). -/
def scaleInt (y k : Int) : Int := if 0 ≤ k then y * 2 ^ k.toNat else y / 2 ^ (-k).toNat

/-- The integer result of R87 for a width, from the exact result of the operation. -/
def Mods.intResult (m : Mods) (sgn : Bool) (w : Nat) (y : Int) : Nat :=
  let hi : Int := if sgn then 2 ^ (w - 1) - 1 else 2 ^ w - 1
  let lo : Int := if sgn then -(2 ^ (w - 1)) else 0
  let y := scaleInt y m.scale
  let y := if m.clamp then min (max y 0) hi else y
  codeOf w (if m.sat then min (max y lo) hi else y)

/-- The largest value of a tag, for CLAMP of an integer result. -/
def tagHi (t : Nat) : Int := if tagIsI t then 2 ^ (tagMem t - 1) - 1 else 2 ^ tagMem t - 1

/-- The exact result after SCALE and CLAMP, for a target tag (R87). -/
def modPost (m : Option Mods) (t : Nat) (y : XV) : XV :=
  match m with
  | none => y
  | some m =>
    let y := y.scale m.scale
    if m.clamp then
      if tagIsI t || tagIsN t then
        if y.isNan then y
        else if y.lt XV.zero then XV.zero else if (XV.ofInt (tagHi t)).lt y then XV.ofInt (tagHi t) else y
      else y.clamp01
    else y

def modSat (m : Option Mods) : Bool := m.elim false Mods.sat
def modA (m : Option Mods) (x : XV) : XV := m.elim x fun m => modXV m.absa m.nega x
def modB (m : Option Mods) (x : XV) : XV := m.elim x fun m => modXV m.absb m.negb x

/-- A scalar integer operation that a prefix may modify (R86): `plain` without one, else the exact operation on the
modified operands. -/
def Slot.intOp (t : Slot) (sgn : Bool) (plain : Dword → Dword → Dword) (exact : Int → Int → Int) (a b : Dword) : Dword :=
  match t.mods with
  | none => plain a b
  | some m =>
    let v (x : Dword) : Int := if sgn then x.toInt else x.toNat
    BitVec.ofNat 64 (m.intResult sgn 64 (exact (modInt m.absa m.nega (v a)) (modInt m.absb m.negb (v b))))

/-! ### Scalar floating point (R120, R121) -/

/-- The operand of a floating-point format in the low bits of a register. -/
def fpArg (f : BitVec 2) (x : Dword) : XV := decodeTag f.toNat x.toNat

/-- A scalar rounding form (R121): the mode, one rounding of the exact result, its flags, SRSEED. `pre`: flags of the
operands. -/
def State.fpRound (s : State) (t : Nat) (r : Nat) (y : XRes) : Option (Nat × State) :=
  (s.rmode r).map fun m =>
    let q := roundTo t m (modSat s.slot.mods) (modPost s.slot.mods t y.val) (s.rword 0)
    (q.code, (s.orFflags (y.flags ||| q.flags)).bumpSeed m)

/-! ### Vector groups (R10, R11, R23) -/

def Slot.getV (t : Slot) (r : RegNo) : VReg := t.v[r.toNat]'r.isLt
def Slot.setV (t : Slot) (r : RegNo) (v : VReg) : Slot := { t with v := t.v.set r.toNat v r.isLt }

/-- G, the registers of a group. -/
def Slot.g (t : Slot) : Nat := 2 ^ t.vgrp.toNat
/-- EW in bits. -/
def Slot.ewBits (t : Slot) : Nat := 2 ^ t.vew.toNat
/-- L, the active lanes. -/
def State.lanes (s : State) : Nat := s.core.lanes.toNat
/-- The bits of one register: 256·L. -/
def State.regBits (s : State) : Nat := 256 * s.lanes
/-- VLMAX for a grouping and a width (R11). -/
def State.vlmaxOf (s : State) (g ew : Nat) : Nat := s.regBits * g / ew
def State.vlmax (s : State) : Nat := s.vlmaxOf s.slot.g s.slot.ewBits

/-- Element i at width w of the group that starts at r. -/
def State.elem (s : State) (r : RegNo) (w i : Nat) : Nat :=
  let bit := i * w
  let reg := r + BitVec.ofNat 5 (bit / s.regBits)
  (s.slot.getV reg).data.toNat / 2 ^ (bit % s.regBits) % 2 ^ w

/-- Element i at width w of the group that starts at r replaced. -/
def State.setElem (s : State) (r : RegNo) (w i v : Nat) : State :=
  let bit := i * w
  let reg := r + BitVec.ofNat 5 (bit / s.regBits)
  s.upd fun t =>
    let q := t.getV reg
    t.setV reg { q with data := BitVec.ofNat 2048 (natSetBits q.data.toNat (bit % s.regBits) w v) }

/-- The registers of a group of n. -/
def groupRegs (r : RegNo) (n : Nat) : List RegNo := (List.range n).map fun i => r + BitVec.ofNat 5 i

/-- The state with a change made to every register of a group. -/
def State.modGroup (s : State) (r : RegNo) (n : Nat) (f : VReg → VReg) : State :=
  s.upd fun t => (groupRegs r n).foldl (fun t r => t.setV r (f (t.getV r))) t

/-- The bits of the group of n registers that starts at r: 256·L bits each (R10). -/
def State.group (s : State) (r : RegNo) (n : Nat) : Nat :=
  (List.range n).foldl (fun v i =>
    v + (s.slot.getV (r + BitVec.ofNat 5 i)).data.toNat % 2 ^ s.regBits * 2 ^ (s.regBits * i)) 0

/-- The group's bits replaced; its tag set and its progress complete (R9, R26). -/
def State.putGroup (s : State) (r : RegNo) (n v t : Nat) : State :=
  s.upd fun q => (List.range n).foldl (fun q i =>
    q.setV (r + BitVec.ofNat 5 i)
      { q.getV (r + BitVec.ofNat 5 i) with
        data := BitVec.ofNat 2048 (v / 2 ^ (s.regBits * i) % 2 ^ s.regBits), tag := BitVec.ofNat 5 t, prog := none }) q

/-- Element i of width w of a group's bits. -/
def elemAt (v w i : Nat) : Nat := v / 2 ^ (w * i) % 2 ^ w

/-- The tag of a group: its first register's. -/
def State.vtag (s : State) (r : RegNo) : Nat := (s.slot.getV r).tag.toNat

/-- A write of a group's tag (R9). -/
def State.setTag (s : State) (r : RegNo) (n t : Nat) : State := s.modGroup r n fun v => { v with tag := BitVec.ofNat 5 t }

/-- The elements of width w that one register holds (R10). -/
def State.perReg (s : State) (w : Nat) : Nat := s.regBits / max 1 w

/-- The part of `p` elements of a group that lies in its k-th register; none where it is all of the register. -/
def State.inReg (s : State) (w k p : Nat) : Option Nat :=
  if (k + 1) * s.perReg w ≤ p then none else some (p - k * s.perReg w)

/-- The producer of a group has written the elements of width w below `p`, or all of them: each register's own progress
index (R9, R26). -/
def State.setProg (s : State) (r : RegNo) (n w : Nat) (p : Option Nat) : State :=
  s.upd fun t => (List.range n).foldl (fun t k =>
    let q := r + BitVec.ofNat 5 k
    t.setV q { t.getV q with prog := p.bind fun p => s.inReg w k p }) t

/-- The chaining read pointer of a group at its element `p`, or IDLE (R9, R278). -/
def State.setRdp (s : State) (r : RegNo) (n w : Nat) (p : Option Nat) : State :=
  s.upd fun t => (List.range n).foldl (fun t k =>
    let q := r + BitVec.ofNat 5 k
    t.setV q { t.getV q with rdp := p.map fun p => (s.inReg w k p).getD (s.perReg w) }) t

/-- The elements of width w of a group that are readable: all of them, or those below its first register that is not
complete and in that register (R26). -/
def State.progOf (s : State) (r : RegNo) (n w : Nat) : Option Nat :=
  (List.range n).findSome? fun k => (s.slot.getV (r + BitVec.ofNat 5 k)).prog.map fun p => k * s.perReg w + p

/-- An engine command of the slot is still producing a register (R278). -/
def State.producing (s : State) (r : RegNo) : Bool :=
  s.cmds.any fun m => m.slot = s.slotNo && m.eng = 2 && !m.stopped && !m.finished
    && (fld m.word 6 5).toNat ≤ r.toNat && r.toNat < (fld m.word 6 5).toNat + 2 ^ m.grp.toNat

/-- The elements below `n` of width w of a group of g registers are readable: every register that holds one of them is
complete so far (R26), or the group stands at the element at which the instruction resumes (R377). -/
def State.readableAs (s : State) (r : RegNo) (g w n : Nat) : Bool :=
  match s.progOf r g w with
  | none => true
  | some p => n ≤ p || (s.slot.restart.map BitVec.toNat = some p && !(groupRegs r g).any s.producing)

/-- The same for a group of VTYPE's width and grouping. -/
def State.readable (s : State) (r : RegNo) (n : Nat) : Bool := s.readableAs r s.slot.g s.slot.ewBits n

/-- The bits below `n` of one register are readable (R245). -/
def State.bitsReady (s : State) (r : RegNo) (n : Nat) : Bool :=
  match (s.slot.getV r).prog with
  | none => true
  | some p => n ≤ p * tagReg (s.vtag r)

/-- No element below `n` of width w of a group of g registers is still to be read by an engine (R27) or to be written by
one (R24). -/
def State.writableAs (s : State) (r : RegNo) (g w n : Nat) : Bool :=
  (List.range g).all fun k =>
    let q := r + BitVec.ofNat 5 k
    !s.producing q && (match (s.slot.getV q).rdp with
      | none => true
      | some p => min (n - k * s.perReg w) (s.perReg w) ≤ p)

/-- The same for a group of VTYPE's width and grouping. -/
def State.writable (s : State) (r : RegNo) (n : Nat) : Bool := s.writableAs r s.slot.g s.slot.ewBits n

/-- Element i is active under mask field m (R23). -/
def State.active (s : State) (m : RegNo) (i : Nat) : Bool :=
  m = 0 || (s.elem m s.slot.ewBits i).testBit 0

/-- A register number is a multiple of the group size (R23). -/
def aligned (r : RegNo) (n : Nat) : Bool := r.toNat % n = 0

/-- Two groups share a register. -/
def overlaps (a : RegNo) (n : Nat) (b : RegNo) (k : Nat) : Bool :=
  0 < n && 0 < k && a.toNat < b.toNat + k && b.toNat < a.toNat + n

/-- A vector instruction names a link register while LM = 1 (R185). -/
def State.namesLink (s : State) (rs : List RegNo) : Bool := s.slot.lm && rs.any fun r => 28 ≤ r.toNat

end Sys2Proof.Machine
end

