-- ==== Sys2Proof/Machine/Memory.lean ====
section
/-! DEFINITION. Scalar loads and stores, STQ, scalar atomics and fences (R107 to R111, R234 to R239, R242 to R249, R253,
R254). -/

namespace Sys2Proof.Machine

/-! ### Loads and stores (R107 to R110) -/

/-- A load: the address, the link conditions, the access, the extension. -/
def State.loadX (s : State) (d a : RegNo) (c : BitVec 4) (i : BitVec 12) (size : Nat) (ext : Nat → Dword) : Out :=
  s.linkGate [a] (some d)
    ((s.load (s.ctxC c) (s.src [] a + sext i) size size).outHeld [a] (some d) fun v s' =>
      .next (s'.retire [a] d (ext v)))

/-- Zero extension, and sign extension of n bytes. -/
def zext (v : Nat) : Dword := BitVec.ofNat 64 v
def sextBytes (n v : Nat) : Dword := BitVec.ofInt 64 (signedOf (8 * n) v)

def execLdB (d a : RegNo) (c : BitVec 4) (i : BitVec 12) (s : State) : Out := s.loadX d a c i 1 (sextBytes 1)
def execLdBu (d a : RegNo) (c : BitVec 4) (i : BitVec 12) (s : State) : Out := s.loadX d a c i 1 zext
def execLdH (d a : RegNo) (c : BitVec 4) (i : BitVec 12) (s : State) : Out := s.loadX d a c i 2 (sextBytes 2)
def execLdHu (d a : RegNo) (c : BitVec 4) (i : BitVec 12) (s : State) : Out := s.loadX d a c i 2 zext
def execLdW (d a : RegNo) (c : BitVec 4) (i : BitVec 12) (s : State) : Out := s.loadX d a c i 4 (sextBytes 4)
def execLdWu (d a : RegNo) (c : BitVec 4) (i : BitVec 12) (s : State) : Out := s.loadX d a c i 4 zext
def execLdD (d a : RegNo) (c : BitVec 4) (i : BitVec 12) (s : State) : Out := s.loadX d a c i 8 zext

/-- SRSEED after a store through a decode window that rounded with RSR (R48, R212). -/
def State.bumpIfWindow (s : State) (c : Ctx) (va : Dword) (size : Nat) : State :=
  if State.storeRounds c va size && s.slot.frm = 5 then s.bumpSeed .rsr else s

/-- A store: the words popped are rs1's, then rs2's (R203). -/
def State.storeX (s : State) (d a : RegNo) (c : BitVec 4) (i : BitVec 12) (size : Nat) : Out :=
  s.linkGate [a, d] none
    (let va := s.src [] a + sext i
     (s.store (s.ctxC c) va size ((s.src [a] d).toNat % 2 ^ (8 * size))).outHeld [a, d] none fun _ s' =>
      .next ((s'.bumpIfWindow s.ctx va size).popLinks [a, d]))

def execStB (d a : RegNo) (c : BitVec 4) (i : BitVec 12) (s : State) : Out := s.storeX d a c i 1
def execStH (d a : RegNo) (c : BitVec 4) (i : BitVec 12) (s : State) : Out := s.storeX d a c i 2
def execStW (d a : RegNo) (c : BitVec 4) (i : BitVec 12) (s : State) : Out := s.storeX d a c i 4
def execStD (d a : RegNo) (c : BitVec 4) (i : BitVec 12) (s : State) : Out := s.storeX d a c i 8

/-! ### STQ (R245, R246) -/

/-- The offset of STQ: 32 times its signed field. -/
def stqOff (o : BitVec 11) : Dword := sext o * 32

/-- The 32-byte store of a value at an address, one access at its owner. -/
def State.storeQ (s : State) (c : Ctx) (va : Dword) (v : Nat) : Res Unit :=
  (s.reachOwner c va 32 .write).bind fun t s => s.writeOwner c t va 32 v

/-- s(n) to s(n+3) as 32 bytes. -/
def State.quad (s : State) (n : RegNo) : Nat :=
  (s.getX n).toNat + 2 ^ 64 * (s.getX (n + 1)).toNat + 2 ^ 128 * (s.getX (n + 2)).toNat + 2 ^ 192 * (s.getX (n + 3)).toNat

def execStq (n a : RegNo) (c : BitVec 4) (o : BitVec 11) (s : State) : Out :=
  if s.namesLink [n] then s.illegal
  else s.linkGate [a] none
    ((s.storeQ (s.ctxC c) (s.src [] a + stqOff o) (s.quad n)).outHeld [a] none fun _ s' => .next (s'.popLinks [a]))

/-- The vector form reads bits 255:0 of vn once vn's progress index covers them. Its address may be a link: R203 names majors 0x01
to 0x15 whole, and the model reads R185's vector instructions as those of the other majors (DEDUCED, log 113). -/
def execStqV (n a : RegNo) (c : BitVec 4) (o : BitVec 11) (s : State) : Out :=
  s.linkGate [a] none
    (if s.bitsReady n 256 then
      (s.storeQ (s.ctxC c) (s.src [] a + stqOff o) ((s.slot.getV n).data.toNat % 2 ^ 256)).outHeld [a] none fun _ s' =>
        .next (s'.popLinks [a])
     else .next s.holdOn)

/-! ### Releases and acquires (R235 to R239) -/

/-- An earlier access of the slot in a class of the mask that is not yet performed for the scope: an engine command of the
slot, for SYSTEM scope a peer store without its acknowledgement, and for DIE and wider a remote-reduce packet (class 0)
without its own (R232, R238, R254, R413, R430). -/
def State.outstanding (s : State) (mask : BitVec 16) (scope : Nat) : Bool :=
  scope ≠ 0 &&
    (s.cmds.any (fun m => m.slot = s.slotNo && !m.stopped && mask.getLsbD m.cls.toNat)
      || (scope = 6 && mask ≠ 0 && s.slot.unacked ≠ 0) || (4 ≤ scope && mask.getLsbD 0 && s.slot.packets ≠ 0))

/-- The release of every class at a scope: it waits for the accesses before it. -/
def State.release (s : State) (scope : Nat) (k : Out) : Out := if s.outstanding 0xFFFF scope then .next s.holdOn else k

/-- What a fence of the slot waits for: the earlier accesses in the classes of its before-mask (R232, R238, R254). -/
def State.fenceOf (s : State) (before after : BitVec 16) (scope : BitVec 3) (all : Bool) : PendFence :=
  { cmds := if scope = 0 then []
      else (s.cmds.filter fun m => m.slot = s.slotNo && !m.stopped && before.getLsbD m.cls.toNat).map Cmd.id
    peer := scope = 6 && before ≠ 0
    packets := 4 ≤ scope.toNat && before.getLsbD 0
    after, scope, all, next := s.nextCmd }

/-- Every access that a fence orders before it has been performed for its scope. -/
def State.fenceMet (s : State) (f : PendFence) : Bool :=
  !(s.cmds.any fun m => f.cmds.contains m.id && !m.stopped) && (!f.peer || s.slot.unacked = 0)
    && (!f.packets || s.slot.packets = 0)

/-- A fence completes: CLKTS moves where its after-mask is not empty (R239, R405), and fence.all discards the instructions
fetched before it (R452). -/
def State.fenceDone (s : State) (f : PendFence) : State :=
  let s := if f.after = 0 then s else s.syncTime f.scope.toNat
  if f.all then (s.updCore fun c => { c with icache := [] }).upd fun t => { t with ahead := [] } else s

/-- A fence issues: it completes at once, or stands while later instructions of the slot issue past it (R254). -/
def State.fence (s : State) (f : PendFence) : State :=
  if s.fenceMet f then s.fenceDone f
  else
    (if f.all then (s.updCore fun c => { c with icache := [] }).upd fun t => { t with ahead := [] } else s).upd fun t =>
      { t with fences := t.fences ++ [f] }

/-- The fences of the slot in place whose accesses have been performed complete. -/
def State.settleHere (s : State) : State :=
  (s.slot.fences.filter s.fenceMet).foldl State.fenceDone
    (s.upd fun t => { t with fences := t.fences.filter fun f => !s.fenceMet f })

/-- The fences whose accesses have been performed complete, in every slot. -/
def State.settleFences (s : State) : State :=
  (s.allSlots.filter fun p => !p.2.fences.isEmpty).foldl (fun s p => (s.focus p.1).settleHere) s

/-- fence (R253, R254): the masks from s(rs1). -/
def execFence (a : RegNo) (sc : BitVec 3) (s : State) : Out :=
  if s.namesLink [a] then s.illegal
  else .next (s.fence (s.fenceOf (fld (s.getX a) 0 16) (fld (s.getX a) 16 16) sc false))

/-- fence.all (R253, R254, R452): every class in both masks; instructions fetched before it are discarded. -/
def execFenceAll (sc : BitVec 3) (s : State) : Out := .next (s.fence (s.fenceOf 0xFFFF 0xFFFF sc true))

/-! ### Scalar atomics (R247 to R249) -/

/-- The value an atomic writes, from the old value, the operand and the new value of cas, at w bits; none where it writes
nothing (R248). -/
def amoValue (aop w old x new : Nat) : Option Nat :=
  let m := 2 ^ w
  match aop with
  | 0 => none
  | 1 | 2 => some (x % m)
  | 3 => if old % m = x % m then some (new % m) else none
  | 4 => some ((old + x) % m)
  | 5 => some (old % m &&& x % m)
  | 6 => some (old % m ||| x % m)
  | 7 => some ((old % m) ^^^ (x % m))
  | 8 => some (if signedOf w x < signedOf w old then x % m else old % m)
  | 9 => some (if signedOf w old < signedOf w x then x % m else old % m)
  | 10 => some (min (old % m) (x % m))
  | _ => some (max (old % m) (x % m))

/-- One atomic at its owner (R249): the old value. A read half alone takes the time of a home-served read, a write that of
a store (R222, R249, R403). On a peer it is one packet, and the old value is the peer's answer (R413). -/
def State.amoAt (s : State) (c : Ctx) (t : Target) (va : Dword) (aop size x new : Nat) : Res Nat :=
  match t with
  | .peer m _ off =>
    (s.askPeer m c.slot off va (.atomic (BitVec.ofNat 4 aop) size (BitVec.ofNat 128 x) (BitVec.ofNat 128 new))
      c.cls).bind
      fun v s => .ok (v % 2 ^ (8 * size)) s
  | .raw k | .cmem k =>
    let old := s.mem.read k size
    match amoValue aop (8 * size) old x new with
    | none => .ok old (s.touchKey c.core k false)
    | some v => (s.writeOwner c t va size v).bind fun _ s => .ok old s
  | .glob pa =>
    let old := s.mem.read pa size
    match amoValue aop (8 * size) old x new with
    | none =>
      let (v, s) := s.readAtomic c pa size
      .ok v s
    | some v => (s.writeOwner c t va size v).bind fun _ s => .ok old s
  | _ => .trap (addressTrap va) s

/-- The access of an atomic at an address: its checks, with `rel` the release of a scope, then the atomic (R249). -/
def State.amo (s : State) (c : Ctx) (va : Dword) (aop size x new : Nat) (rel : Option Nat := none) : Res Nat :=
  (s.reachOwner c va size (if aop = 0 then .read else .write) true).bind fun t s =>
    if rel.any (s.outstanding 0xFFFF) then .wait s else s.amoAt c t va aop size x new

/-- The register pairs and quads of R244 and R248 include a link. -/
def amoWide (aop : Nat) (w : BitVec 2) : Bool := w = 2 || aop = 3

/-- A scalar atomic (R244, R247 to R249). -/
def State.amoX (s : State) (aop : Nat) (d a : RegNo) (aq rl : BitVec 1) (sc : BitVec 3) (c : BitVec 4) (w : BitVec 2) : Out :=
  let wide := amoWide aop w
  if wide && s.namesLink [d] then s.illegal
  else
    let reads := if aop = 0 || wide then [a] else [a, d]
    let writes := if aop = 1 then none else some d
    s.linkGate reads (if wide then none else writes)
      (let size := 4 * 2 ^ w.toNat
       let one (r : RegNo) : Nat := (s.getX r).toNat
       let x := if w = 2 then one d + 2 ^ 64 * one (d + 1) else if wide then one d else (s.src [a] d).toNat
       let new := if w = 2 then one (d + 2) + 2 ^ 64 * one (d + 3) else one (d + 1)
       (s.amo (s.ctxC c) (s.src [] a) aop size x new (if rl = 1 then some sc.toNat else none)).outHeld reads
         (if wide then none else writes) fun old s' =>
         let s' := if aq = 1 then s'.syncTime sc.toNat else s'
         let s' := s'.popLinks reads
         .next (if aop = 1 then s'
           else if w = 2 then (s'.setX d (BitVec.ofNat 64 old)).setX (d + 1) (BitVec.ofNat 64 (old / 2 ^ 64))
           else s'.putX d (if w = 0 then sextBytes 4 old else zext old)))

def execAmoLd (d a : RegNo) (q l : BitVec 1) (sc : BitVec 3) (c : BitVec 4) (w : BitVec 2) (s : State) : Out :=
  s.amoX 0 d a q l sc c w
def execAmoSt (d a : RegNo) (q l : BitVec 1) (sc : BitVec 3) (c : BitVec 4) (w : BitVec 2) (s : State) : Out :=
  s.amoX 1 d a q l sc c w
def execAmoSwap (d a : RegNo) (q l : BitVec 1) (sc : BitVec 3) (c : BitVec 4) (w : BitVec 2) (s : State) : Out :=
  s.amoX 2 d a q l sc c w
def execAmoCas (d a : RegNo) (q l : BitVec 1) (sc : BitVec 3) (c : BitVec 4) (w : BitVec 2) (s : State) : Out :=
  s.amoX 3 d a q l sc c w
def execAmoAdd (d a : RegNo) (q l : BitVec 1) (sc : BitVec 3) (c : BitVec 4) (w : BitVec 2) (s : State) : Out :=
  s.amoX 4 d a q l sc c w
def execAmoAnd (d a : RegNo) (q l : BitVec 1) (sc : BitVec 3) (c : BitVec 4) (w : BitVec 2) (s : State) : Out :=
  s.amoX 5 d a q l sc c w
def execAmoOr (d a : RegNo) (q l : BitVec 1) (sc : BitVec 3) (c : BitVec 4) (w : BitVec 2) (s : State) : Out :=
  s.amoX 6 d a q l sc c w
def execAmoXor (d a : RegNo) (q l : BitVec 1) (sc : BitVec 3) (c : BitVec 4) (w : BitVec 2) (s : State) : Out :=
  s.amoX 7 d a q l sc c w
def execAmoMin (d a : RegNo) (q l : BitVec 1) (sc : BitVec 3) (c : BitVec 4) (w : BitVec 2) (s : State) : Out :=
  s.amoX 8 d a q l sc c w
def execAmoMax (d a : RegNo) (q l : BitVec 1) (sc : BitVec 3) (c : BitVec 4) (w : BitVec 2) (s : State) : Out :=
  s.amoX 9 d a q l sc c w
def execAmoMinu (d a : RegNo) (q l : BitVec 1) (sc : BitVec 3) (c : BitVec 4) (w : BitVec 2) (s : State) : Out :=
  s.amoX 10 d a q l sc c w
def execAmoMaxu (d a : RegNo) (q l : BitVec 1) (sc : BitVec 3) (c : BitVec 4) (w : BitVec 2) (s : State) : Out :=
  s.amoX 11 d a q l sc c w

end Sys2Proof.Machine
end

