-- ==== Sys2Proof/Machine/Scalar.lean ====
section
/-! DEFINITION. Integer arithmetic, logic, compares, bit operations and upper immediates (R94 to R102). -/

namespace Sys2Proof.Machine

/-! ### Immediate forms (R95, R96, R99) -/

def execAddi (d a : RegNo) (i : BitVec 12) (s : State) : Out := s.op1 d a fun x => x + sext i
def execAndi (d a : RegNo) (i : BitVec 12) (s : State) : Out := s.op1 d a fun x => x &&& sext i
def execOri (d a : RegNo) (i : BitVec 12) (s : State) : Out := s.op1 d a fun x => x ||| sext i
def execXori (d a : RegNo) (i : BitVec 12) (s : State) : Out := s.op1 d a fun x => x ^^^ sext i

/-- A compare's completion (R99, R125): t to rd, FLAGS from t. -/
def State.compare (s : State) (reads : List RegNo) (d : RegNo) (t : Bool) : State :=
  (s.retire reads d (BitVec.ofNat 64 (b2n t))).setFlags (scalarFlags t)

/-- The compare of two scalar registers. -/
def State.cmp2 (s : State) (d a b : RegNo) (f : Dword → Dword → Bool) : Out :=
  s.linkGate [a, b] (some d) (.next (s.compare [a, b] d (f (s.src [] a) (s.src [a] b))))

/-- The compare of a scalar register with an immediate. -/
def State.cmp1 (s : State) (d a : RegNo) (f : Dword → Bool) : Out :=
  s.linkGate [a] (some d) (.next (s.compare [a] d (f (s.src [] a))))

def execClti (d a : RegNo) (i : BitVec 12) (s : State) : Out := s.cmp1 d a fun x => x.slt (sext i)
def execCltiu (d a : RegNo) (i : BitVec 12) (s : State) : Out := s.cmp1 d a fun x => x.ult (sext i)

/-- Rotation right by n (R96). -/
def ror64 (x : Dword) (n : Nat) : Dword := (x >>> n) ||| (x <<< (64 - n))

def execSlli (d a : RegNo) (n : BitVec 6) (s : State) : Out := s.op1 d a fun x => x <<< n.toNat
def execSrli (d a : RegNo) (n : BitVec 6) (s : State) : Out := s.op1 d a fun x => x >>> n.toNat
def execSrai (d a : RegNo) (n : BitVec 6) (s : State) : Out := s.op1 d a fun x => x.sshiftRight n.toNat
def execRori (d a : RegNo) (n : BitVec 6) (s : State) : Out := s.op1 d a fun x => ror64 x n.toNat

/-! ### Register forms (R95, R96), six of which take the modifiers of a prefix (R86) -/

def execAdd (d a b : RegNo) (s : State) : Out := s.op2 d a b (s.slot.intOp true (· + ·) (· + ·))
def execSub (d a b : RegNo) (s : State) : Out := s.op2 d a b (s.slot.intOp true (· - ·) (· - ·))
def execAnd (d a b : RegNo) (s : State) : Out := s.op2 d a b (· &&& ·)
def execOr (d a b : RegNo) (s : State) : Out := s.op2 d a b (· ||| ·)
def execXor (d a b : RegNo) (s : State) : Out := s.op2 d a b (· ^^^ ·)
def execAndn (d a b : RegNo) (s : State) : Out := s.op2 d a b fun x y => x &&& ~~~y

/-- The shift amount of a register form: s(rs2)[5:0]. -/
def amount (y : Dword) : Nat := (fld y 0 6).toNat

def execSll (d a b : RegNo) (s : State) : Out := s.op2 d a b fun x y => x <<< amount y
def execSrl (d a b : RegNo) (s : State) : Out := s.op2 d a b fun x y => x >>> amount y
def execSra (d a b : RegNo) (s : State) : Out := s.op2 d a b fun x y => x.sshiftRight (amount y)
def execRor (d a b : RegNo) (s : State) : Out := s.op2 d a b fun x y => ror64 x (amount y)

def sminD (x y : Dword) : Dword := if x.slt y then x else y
def smaxD (x y : Dword) : Dword := if x.slt y then y else x
def uminD (x y : Dword) : Dword := if x.ult y then x else y
def umaxD (x y : Dword) : Dword := if x.ult y then y else x

def execMin (d a b : RegNo) (s : State) : Out := s.op2 d a b (s.slot.intOp true sminD min)
def execMinu (d a b : RegNo) (s : State) : Out := s.op2 d a b (s.slot.intOp false uminD min)
def execMax (d a b : RegNo) (s : State) : Out := s.op2 d a b (s.slot.intOp true smaxD max)
def execMaxu (d a b : RegNo) (s : State) : Out := s.op2 d a b (s.slot.intOp false umaxD max)

/-! ### Multiplication and division (R97, R98) -/

/-- P[127:64] of an exact product. -/
def highHalf (p : Int) : Dword := BitVec.ofInt 64 (p / 2 ^ 64)

def execMul (d a b : RegNo) (s : State) : Out := s.op2 d a b (s.slot.intOp true (· * ·) (· * ·))
def execMulh (d a b : RegNo) (s : State) : Out := s.op2 d a b fun x y => highHalf (x.toInt * y.toInt)
def execMulhu (d a b : RegNo) (s : State) : Out := s.op2 d a b fun x y => highHalf (x.toNat * y.toNat)
def execMulhsu (d a b : RegNo) (s : State) : Out := s.op2 d a b fun x y => highHalf (x.toInt * y.toNat)

/-- The signed quotient of R98: truncated, saturated. -/
def divD (x y : Dword) : Dword :=
  if y = 0 then (if x.toInt < 0 then BitVec.intMin 64 else BitVec.intMax 64)
  else if x = BitVec.intMin 64 ∧ y = BitVec.allOnes 64 then BitVec.intMax 64
  else BitVec.ofInt 64 (x.toInt.tdiv y.toInt)

def divuD (x y : Dword) : Dword := if y = 0 then BitVec.allOnes 64 else BitVec.ofNat 64 (x.toNat / y.toNat)

def remD (x y : Dword) : Dword := if y = 0 then x else BitVec.ofInt 64 (x.toInt.tmod y.toInt)

def remuD (x y : Dword) : Dword := if y = 0 then x else BitVec.ofNat 64 (x.toNat % y.toNat)

def execDiv (d a b : RegNo) (s : State) : Out := s.op2 d a b divD
def execDivu (d a b : RegNo) (s : State) : Out := s.op2 d a b divuD
def execRem (d a b : RegNo) (s : State) : Out := s.op2 d a b remD
def execRemu (d a b : RegNo) (s : State) : Out := s.op2 d a b remuD

/-! ### Bit counts and Morton codes (R100, R101) -/

def execClz (d a : RegNo) (s : State) : Out := s.op1 d a fun x => BitVec.ofNat 64 (leadZeros x)
def execCtz (d a : RegNo) (s : State) : Out := s.op1 d a fun x => BitVec.ofNat 64 (trailZeros x)
def execPopc (d a : RegNo) (s : State) : Out := s.op1 d a fun x => BitVec.ofNat 64 (popCount x)

/-- The eight bytes reversed. -/
def bswapD (x : Dword) : Dword :=
  fld x 0 8 ++ fld x 8 8 ++ fld x 16 8 ++ fld x 24 8 ++ fld x 32 8 ++ fld x 40 8 ++ fld x 48 8 ++ fld x 56 8

def execBswap (d a : RegNo) (s : State) : Out := s.op1 d a bswapD

/-- Bits `n` of several numbers interleaved: bit i of number j goes to bit (count)·i + j. -/
def interleave (n : Nat) (xs : List Nat) : Nat :=
  (List.range n).foldl (fun v i =>
    xs.zipIdx.foldl (fun v p => v + b2n (p.1.testBit i) * 2 ^ (xs.length * i + p.2)) v) 0

/-- Every `step`-th bit of x from bit k, n of them. -/
def extract (n step k x : Nat) : Nat :=
  (List.range n).foldl (fun v i => v + b2n (x.testBit (step * i + k)) * 2 ^ i) 0

def bilv2D (x y : Dword) : Dword := BitVec.ofNat 64 (interleave 32 [x.toNat, y.toNat])
def bilv3D (x y z : Dword) : Dword := BitVec.ofNat 64 (interleave 21 [x.toNat, y.toNat, z.toNat])
def bext2D (x y : Dword) : Dword := BitVec.ofNat 64 (extract 32 2 (y.toNat % 2) x.toNat)
def bext3D (x y : Dword) : Dword :=
  if y.toNat % 4 < 3 then BitVec.ofNat 64 (extract 21 3 (y.toNat % 4) x.toNat) else 0

def execBilv2 (d a b : RegNo) (s : State) : Out := s.op2 d a b bilv2D

/-- bilv3 reads the old rd as its third source, after rs1 and rs2 (R101, R203). -/
def execBilv3 (d a b : RegNo) (s : State) : Out :=
  s.linkGate [a, b, d] (some d)
    (.next (s.retire [a, b, d] d (bilv3D (s.src [] a) (s.src [a] b) (s.src [a, b] d))))

def execBext2 (d a b : RegNo) (s : State) : Out := s.op2 d a b bext2D
def execBext3 (d a b : RegNo) (s : State) : Out := s.op2 d a b bext3D

/-! ### Compares (R99) -/

def execCeq (d a b : RegNo) (s : State) : Out := s.cmp2 d a b fun x y => x = y
def execCne (d a b : RegNo) (s : State) : Out := s.cmp2 d a b fun x y => x ≠ y
def execClt (d a b : RegNo) (s : State) : Out := s.cmp2 d a b fun x y => x.slt y
def execCge (d a b : RegNo) (s : State) : Out := s.cmp2 d a b fun x y => !x.slt y
def execCltu (d a b : RegNo) (s : State) : Out := s.cmp2 d a b fun x y => x.ult y
def execCgeu (d a b : RegNo) (s : State) : Out := s.cmp2 d a b fun x y => !x.ult y

/-! ### Upper immediates (R70, R102) -/

def execLi (d : RegNo) (i : BitVec 16) (s : State) : Out := s.op0 d (sext i)
def execLis (d : RegNo) (i : BitVec 16) (s : State) : Out := s.op0 d (sext i <<< 16)

/-- The address of the instruction with bits 15:0 cleared, plus the immediate at bit 16. -/
def pcsegD (pc : BitVec 56) (i : BitVec 16) : Dword := (pc.setWidth 64 &&& ~~~0xFFFF#64) + (sext i <<< 16)

def execPcseg (d : RegNo) (i : BitVec 16) (s : State) : Out := s.op0 d (pcsegD s.slot.pc i)

/-- Halfword h replaced; the old rd is read (R102). -/
def ins16D (x : Dword) (h : BitVec 2) (i : BitVec 16) : Dword := setFld x (16 * h.toNat) i

def execIns16 (d : RegNo) (h : BitVec 2) (i : BitVec 16) (s : State) : Out := s.op1 d d fun x => ins16D x h i

end Sys2Proof.Machine
end

