-- ==== Sys2Proof/Machine/Vector.lean ====
section
/-! DEFINITION. Vector configuration, moves, arithmetic, compares, conversions, logic and movement (R129 to R150). -/

namespace Sys2Proof.Machine

/-! ### The order of checks (R66) -/

def State.vtagx (s : State) : Out := s.trap { cause := causeVtagx, tval := s.word }
def State.vilTrap (s : State) : Out := s.trap { cause := causeVill, tval := s.word }

/-- The checks of a vector instruction in the order of R66, then the waits of R26 and R27: `regs` the scalar registers it
names, `c4` its operands against VTYPE, `c5` its source tags, `c6` its operand values. -/
def State.vgate (s : State) (regs : List RegNo) (c4 c5 c6 ready : Bool) (k : Out) : Out :=
  if s.namesLink regs then s.illegal
  else if s.slot.vill then s.vilTrap
  else if !c4 then s.illegal
  else if !c5 then s.vtagx
  else if !c6 then s.illegal
  else if !ready then .next s.holdOn
  else k

/-- A group of n registers from r: a multiple of n, at most 8, not past v31 (R131). -/
def groupOk (r : RegNo) (n : Nat) : Bool := n ≤ 8 && aligned r n && r.toNat + n ≤ 32

def State.vlN (s : State) : Nat := s.slot.vl.toNat
def State.ew (s : State) : Nat := s.slot.ewBits
def State.gN (s : State) : Nat := s.slot.g

/-- A mask field names a group (R23). -/
def State.maskOk (s : State) (m : RegNo) : Bool := m = 0 || groupOk m s.gN

/-- The active body elements (R23). -/
def State.actives (s : State) (m : RegNo) : List Nat :=
  let mk := if m = 0 then 0 else s.group m s.gN
  (List.range s.vlN).filter fun i => m = 0 || (elemAt mk s.ew i).testBit 0

/-- The integer tag of a width, b1 for 1 (R130). -/
def intTag (w : Nat) : Nat :=
  match w with
  | 64 => 13 | 32 => 14 | 16 => 15 | 8 => 16 | 4 => 17 | 2 => 18 | _ => 21

/-- The result tag of a form that moves bits (R130). -/
def State.moveTag (s : State) (d : RegNo) : Nat := if tagReg (s.vtag d) = s.ew then s.vtag d else intTag s.ew

/-- The sources are readable up to n elements, the destination writable (R26, R27), and the mask readable. -/
def State.vready (s : State) (srcs : List RegNo) (d m : RegNo) : Bool :=
  srcs.all (fun r => s.readable r s.vlN) && s.writable d s.vlN && (m = 0 || s.readable m s.vlN)

/-- A source read as a whole: the progress index of each of its registers is complete. -/
def State.complete (s : State) (r : RegNo) : Bool := (s.progOf r s.gN s.ew).isNone

/-- The active elements of the destination written by f, in ascending order, with the flags that f raises; the tag set
(R23, R129, R132). Under a 6-bit tag the upper two bits are written as zero (R14). -/
def State.vwrite (s : State) (d : RegNo) (g w t : Nat) (act : List Nat) (f : Nat → Nat × BitVec 5) : State :=
  let r := act.foldl (fun (a : Nat × BitVec 5) i =>
    let q := f i
    (natSetBits a.1 (w * i) w (q.1 % 2 ^ tagMem t), a.2 ||| q.2)) (s.group d g, 0)
  (s.putGroup d g r.1 t).orFflags r.2

/-- The same for a form that raises no flag. -/
def State.vwriteQuiet (s : State) (d : RegNo) (g w t : Nat) (act : List Nat) (f : Nat → Nat) : State :=
  s.vwrite d g w t act fun i => (f i, 0)

/-! ### Configuration and scalar moves (R133 to R135) -/

/-- vcfg (R15, R133). -/
def execVcfg (d a : RegNo) (g : BitVec 2) (e : BitVec 3) (s : State) : Out :=
  if s.namesLink [d, a] then s.illegal
  else if e = 7 then
    .next ((s.upd fun t => { t with vill := true, vreq := g ++ e, vgrp := 0, vew := 0, vl := 0 }).setX d 0)
  else
    let vlmax := s.vlmaxOf (2 ^ g.toNat) (2 ^ e.toNat)
    let vl := if a = 0 then vlmax else min (s.getX a).toNat vlmax
    .next ((s.upd fun t =>
      { t with vill := false, vreq := g ++ e, vgrp := g, vew := e, vl := BitVec.ofNat 15 vl }).setX d (BitVec.ofNat 64 vl))

/-- vtag (R134): the tag of one register alone. -/
def execVtag (d : RegNo) (t : BitVec 5) (s : State) : Out :=
  .next (s.upd fun q => q.setV d { q.getV d with tag := t })

/-- vgetx (R135): an element below VLMAX is read whatever VL is, 0 too (DEDUCED, log 101). -/
def execVgetx (d a b : RegNo) (s : State) : Out :=
  let x := (s.getX b).toNat
  s.vgate [d, b] (groupOk a s.gN) (tagReg (s.vtag a) = s.ew) true (s.vlmax ≤ x || s.readable a (x + 1))
    (.next (s.setX d
      (if s.vlmax ≤ x then 0
       else
        let v := elemAt (s.group a s.gN) s.ew x
        if tagIsI (s.vtag a) then BitVec.ofInt 64 (signedOf s.ew v)
        else BitVec.ofNat 64 (v % 2 ^ tagMem (s.vtag a)))))

/-- vsetx (R135): whatever VL is. -/
def execVsetx (d a b : RegNo) (s : State) : Out :=
  let x := (s.getX a).toNat
  s.vgate [a, b] (groupOk d s.gN) true true (s.writable d (x + 1))
    (.next (s.vwriteQuiet d s.gN s.ew (s.moveTag d) (if x < s.vlmax then [x] else []) fun _ => (s.getX b).toNat))

/-- vbcast (R135). -/
def execVbcast (d a m : RegNo) (s : State) : Out :=
  s.vgate [a] (groupOk d s.gN && s.maskOk m) true true (s.vready [] d m)
    (.next (s.vwriteQuiet d s.gN s.ew (s.moveTag d) (s.actives m) fun _ => (s.getX a).toNat))

/-- vid (R135). -/
def execVid (d m : RegNo) (s : State) : Out :=
  s.vgate [] (groupOk d s.gN && s.maskOk m) true true (s.vready [] d m)
    (.next (s.vwriteQuiet d s.gN s.ew (intTag s.ew) (s.actives m) fun i => i))

/-! ### Integer elements (R139) -/

inductive VOp where
  | add | sub | mul | min | max | div
deriving DecidableEq, Repr

/-- The value of an integer code of a tag. -/
def intVal (t c : Nat) : Int := if tagIsI t then signedOf (tagMem t) c else (c % 2 ^ tagMem t : Nat)

/-- Division by R98 at a width. Under a prefix the quotient is R98's before SCALE: an i-tag quotient of 2^(w−1) and a
quotient by 0 are R98's codes as signed values; an n-tag quotient of modified operands is the exact one, by 0 it is
2^w − 1, and SAT alone brings it into the tag's range (log 9). -/
def divInt (sgn : Bool) (w : Nat) (a b : Int) : Int :=
  if sgn then
    if b = 0 then (if a < 0 then -(2 ^ (w - 1)) else 2 ^ (w - 1) - 1)
    else if a.tdiv b = 2 ^ (w - 1) then 2 ^ (w - 1) - 1 else a.tdiv b
  else if b = 0 then 2 ^ w - 1 else a.tdiv b

def VOp.int (o : VOp) (sgn : Bool) (w : Nat) (a b : Int) : Int :=
  match o with
  | .add => a + b
  | .sub => a - b
  | .mul => a * b
  | .min => Min.min a b
  | .max => Max.max a b
  | .div => divInt sgn w a b

def VOp.exact (o : VOp) (rdn : Bool) (a b : XV) : XRes :=
  match o with
  | .add => XV.add rdn a b
  | .sub => XV.sub rdn a b
  | .mul => XV.mul a b
  | .min => XV.minNum a b
  | .max => XV.maxNum a b
  | .div => XV.div a b

/-- Whether an operation rounds on F and T tags (R136). -/
def VOp.rounds (o : VOp) : Bool :=
  match o with
  | .min | .max => false
  | _ => true

/-- The tags that a form accepts (R137). -/
def VOp.accepts (o : VOp) (t : Nat) : Bool :=
  tagIsF t || tagIsT t || tagIsI t || tagIsN t || (tagIsB t && (match o with
    | .mul | .min | .max => true
    | _ => false))

/-- One element of a binary form (R87, R138, R139). -/
def VOp.elem (o : VOp) (mods : Option Mods) (m : RMode) (t r a b : Nat) : Nat × BitVec 5 :=
  if tagIsF t || tagIsT t then
    let y := o.exact (m = .rdn) (modA mods (decodeTag t a)) (modB mods (decodeTag t b))
    let q := roundTo t m (modSat mods) (modPost mods t y.val) r
    (q.code, y.flags ||| q.flags)
  else if tagIsB t then
    match mods with
    | none =>
      (match o with
       | .min => a ||| b
       | .max => a &&& b
       | _ => a ^^^ b, 0)
    | some _ =>
      let y := o.exact false (modA mods (decodeTag t a)) (modB mods (decodeTag t b))
      ((roundB1 (modPost mods t y.val)).code, 0)
  else
    let w := tagMem t
    let sgn := tagIsI t
    match mods with
    | none => (codeOf w (o.int sgn w (intVal t a) (intVal t b)), 0)
    | some k =>
      (k.intResult sgn w (o.int sgn w (modInt k.absa k.nega (intVal t a)) (modInt k.absb k.negb (intVal t b))), 0)

/-- The rounding mode that bits 5:3 of major 0x19 select (R84): none where it is FRM and FRM is reserved. -/
def State.vmode (s : State) (r : BitVec 3) : Option RMode :=
  if r.getLsbD 2 then s.rmode 7
  else
    match (fld r 0 2).toNat with
    | 1 => some .rne
    | 2 => some .rtz
    | 3 => some .rsr
    | _ => s.rmode 7

/-- The replicate count S of bits 5:3; none without replication (R83). -/
def repOf (r : BitVec 3) : Option Nat := if r.getLsbD 2 then some (2 ^ (fld r 0 2).toNat) else none

/-- The index of the second source for element i. -/
def repIx (r : BitVec 3) (i : Nat) : Nat := (repOf r).elim i fun n => i % n

/-- S does not exceed VLMAX. -/
def State.repOk (s : State) (r : BitVec 3) : Bool := (repOf r).elim true fun n => n ≤ s.vlmax

/-- The second source is readable: up to VL, or up to S under replication (R83). -/
def State.readable2 (s : State) (b : RegNo) (r : BitVec 3) : Bool :=
  s.readable b ((repOf r).elim s.vlN fun n => Min.min n s.vlN)

/-- The second source at the turn of element i (R24, R83): where a replicated source is the destination, an element of it
that this instruction has already written reads as written. `el`: the element that a second operand gives, `w` its width. -/
def State.repElem (s : State) (d b : RegNo) (r : BitVec 3) (act : List Nat) (w : Nat) (el : Nat → Nat → Nat) (i : Nat) : Nat :=
  let j := repIx r i
  let y (k : Nat) : Nat := elemAt (s.group b s.gN) s.ew (repIx r k)
  if d = b ∧ j < i ∧ j ∈ act then el j (y j) % 2 ^ w else y i

/-- The active elements where the destination has elements of another width and covers the mask (R23, R24): the mask of an
element is read at its turn, after the elements below it are written. -/
def State.activesAt (s : State) (m d : RegNo) (gd wd t : Nat) (val : Nat → Nat) : List Nat :=
  if m = 0 || wd = s.ew || !overlaps d gd m s.gN then s.actives m
  else
    ((List.range s.vlN).foldl (fun (p : List Nat × State) i =>
      if (p.2.elem m s.ew i).testBit 0 then (p.1 ++ [i], p.2.setElem d wd i (val i % 2 ^ tagMem t)) else p) ([], s)).1

/-- A binary form of major 0x19 (R136 to R139). -/
def State.vbin (s : State) (o : VOp) (d a b m : RegNo) (r : BitVec 3) : Out :=
  let g := s.gN
  let t := s.vtag a
  let isFp := tagIsF t || tagIsT t
  let mods := s.slot.mods
  let mode : Option RMode := if isFp && (o.rounds || mods.isSome) then s.vmode r else some .rne
  s.vgate [] (groupOk d g && groupOk a g && groupOk b g && s.maskOk m && s.repOk r)
    (t = s.vtag b && tagReg t = s.ew && o.accepts t) mode.isSome (s.vready [a] d m && s.readable2 b r)
    (let md := mode.getD .rne
     let va := s.group a g
     let act := s.actives m
     let el (i y : Nat) : Nat × BitVec 5 := o.elem mods md t (s.rword i) (elemAt va s.ew i) y
     .next ((s.vwrite d g s.ew t act fun i =>
        el i (s.repElem d b r act (tagMem t) (fun j y => (el j y).1) i)).bumpSeed md))

def execVadd (d a b m : RegNo) (r : BitVec 3) (s : State) : Out := s.vbin .add d a b m r
def execVsub (d a b m : RegNo) (r : BitVec 3) (s : State) : Out := s.vbin .sub d a b m r
def execVmul (d a b m : RegNo) (r : BitVec 3) (s : State) : Out := s.vbin .mul d a b m r
def execVmin (d a b m : RegNo) (r : BitVec 3) (s : State) : Out := s.vbin .min d a b m r
def execVmax (d a b m : RegNo) (r : BitVec 3) (s : State) : Out := s.vbin .max d a b m r
def execVdiv (d a b m : RegNo) (r : BitVec 3) (s : State) : Out := s.vbin .div d a b m r

/-! ### vmac (R140) -/

/-- `t2` is the widening of `t` (R140). -/
def widens (t t2 : Nat) : Bool :=
  match t with
  | 1 => t2 = 0
  | 2 | 3 => t2 = 1
  | 4 | 5 | 6 | 7 | 9 | 10 | 11 | 12 => t2 = 2 || t2 = 3
  | 14 => t2 = 13
  | 15 => t2 = 14
  | 16 => t2 = 15
  | 17 => t2 = 16
  | 19 => t2 = 15
  | 20 => t2 = 16
  | _ => false

/-- One element of vmac: source tag t, destination tag t2. -/
def macElem (mods : Option Mods) (m : RMode) (t t2 r a b c : Nat) : Nat × BitVec 5 :=
  if tagIsF t || tagIsT t then
    let y := XV.fma (m = .rdn) (modA mods (decodeTag t a)) (modB mods (decodeTag t b)) (decodeTag t2 c)
    let q := roundTo t2 m (modSat mods) (modPost mods t2 y.val) r
    (q.code, y.flags ||| q.flags)
  else
    let w := tagMem t2
    let cv : Int := if tagIsN t then (c % 2 ^ w : Nat) else intVal t2 c
    match mods with
    | none => (codeOf w (intVal t a * intVal t b + cv), 0)
    | some k =>
      (k.intResult (tagIsI t2) w (modInt k.absa k.nega (intVal t a) * modInt k.absb k.negb (intVal t b) + cv), 0)

def execVmac (d a b m : RegNo) (r : BitVec 3) (s : State) : Out :=
  let g := s.gN
  let t := s.vtag a
  let t2 := s.vtag d
  let wide := t ≠ t2 && widens t t2
  let gd := if wide then 2 * g else g
  let wd := if wide then 2 * s.ew else s.ew
  let isFp := tagIsF t || tagIsT t
  let mode : Option RMode := if isFp then s.vmode r else some .rne
  s.vgate [] (groupOk d gd && groupOk a g && groupOk b g && s.maskOk m && s.repOk r
      && (!wide || (!overlaps d gd a g && !overlaps d gd b g)))
    (t = s.vtag b && tagReg t = s.ew && (tagIsF t || tagIsT t || tagIsI t || tagIsN t) && (t2 = t || widens t t2))
    mode.isSome (s.vready [a] d m && s.readable2 b r && s.readableAs d gd wd s.vlN && s.writableAs d gd wd s.vlN)
    (let md := mode.getD .rne
     let va := s.group a g
     let vd := s.group d gd
     let el (i y : Nat) : Nat × BitVec 5 :=
       macElem s.slot.mods md t t2 (s.rword i) (elemAt va s.ew i) y (elemAt vd wd i)
     let res (i : Nat) : Nat × BitVec 5 :=
       el i (s.repElem d b r (s.actives m) (tagMem t2) (fun j y => (el j y).1) i)
     .next ((s.vwrite d gd wd t2 (s.activesAt m d gd wd t2 fun i => (res i).1) res).bumpSeed md))

/-! ### Unary forms (R136 to R139) -/

/-- A unary form that raises no flag: the tags it accepts, its element function from tag and code. -/
def State.vun (s : State) (d a m : RegNo) (acc : Nat → Bool) (f : Nat → Nat → Nat) : Out :=
  let g := s.gN
  let t := s.vtag a
  s.vgate [] (groupOk d g && groupOk a g && s.maskOk m) (tagReg t = s.ew && acc t) true (s.vready [a] d m)
    (let va := s.group a g
     .next (s.vwriteQuiet d g s.ew t (s.actives m) fun i => f t (elemAt va s.ew i)))

def tagInt (t : Nat) : Bool := tagIsI t || tagIsN t || tagIsB t

/-- vsqrt rounds with the mode of its selector (R138). -/
def execVsqrt (d a m : RegNo) (r : BitVec 2) (s : State) : Out :=
  let g := s.gN
  let t := s.vtag a
  let mode := s.vmode (r.setWidth 3)
  s.vgate [] (groupOk d g && groupOk a g && s.maskOk m) (tagReg t = s.ew && (tagIsF t || tagIsT t)) mode.isSome
    (s.vready [a] d m)
    (let md := mode.getD .rne
     let va := s.group a g
     .next ((s.vwrite d g s.ew t (s.actives m) fun i =>
        let y := XV.sqrt (decodeTag t (elemAt va s.ew i))
        let q := roundTo t md false y.val (s.rword i)
        (q.code, y.flags ||| q.flags)).bumpSeed md))

/-- |a| of a code (R138, R139): NaR unchanged. -/
def absCode (t c : Nat) : Nat :=
  let w := tagMem t
  if tagIsF t then c % 2 ^ (w - 1)
  else if tagIsT t then (if c % 2 ^ w ≤ 2 ^ (w - 1) then c % 2 ^ w else 2 ^ w - c % 2 ^ w)
  else if tagIsI t then codeOf w (signedOf w c).natAbs
  else if tagIsB t then 0
  else c % 2 ^ w

/-- −a of a code (R138, R139). -/
def negCode (t c : Nat) : Nat :=
  let w := tagMem t
  if tagIsF t then (c % 2 ^ w) ^^^ 2 ^ (w - 1)
  else if tagIsB t then 1 - c % 2
  else (2 ^ w - c % 2 ^ w) % 2 ^ w

def tagNotMx (t : Nat) : Bool := !tagIsMx t && t ≤ 21

def execVabs (d a m : RegNo) (_r : BitVec 2) (s : State) : Out := s.vun d a m tagNotMx absCode
def execVneg (d a m : RegNo) (_r : BitVec 2) (s : State) : Out := s.vun d a m tagNotMx negCode
def execVnot (d a m : RegNo) (_r : BitVec 2) (s : State) : Out :=
  s.vun d a m tagInt fun t c => 2 ^ tagMem t - 1 - c % 2 ^ tagMem t
def execVclz (d a m : RegNo) (_r : BitVec 2) (s : State) : Out :=
  s.vun d a m tagInt fun t c => (if c = 0 then tagMem t else tagMem t - 1 - c.log2) % 2 ^ tagMem t
def execVpopc (d a m : RegNo) (_r : BitVec 2) (s : State) : Out :=
  s.vun d a m tagInt fun t c => popCount (BitVec.ofNat 64 c) % 2 ^ tagMem t
def execVbilv2 (d a m : RegNo) (_r : BitVec 2) (s : State) : Out :=
  s.vun d a m (fun t => (tagIsI t || tagIsN t) && 2 ≤ tagMem t) fun t c =>
    let h := tagMem t / 2
    interleave h [c % 2 ^ h, c / 2 ^ h]
def execVbext2 (d a m : RegNo) (_r : BitVec 2) (s : State) : Out :=
  s.vun d a m (fun t => (tagIsI t || tagIsN t) && 2 ≤ tagMem t) fun t c =>
    let h := tagMem t / 2
    extract h 2 0 c + 2 ^ h * extract h 2 1 c
def execVmov (d a m : RegNo) (_r : BitVec 2) (s : State) : Out := s.vun d a m (fun t => t ≤ 27) fun _ c => c

/-! ### Compares (R141, R142) -/

inductive VCmp where
  | eq | ne | lt | le | un | tst
deriving DecidableEq, Repr

def VCmp.accepts (o : VCmp) (t : Nat) : Bool :=
  match o with
  | .un => tagIsF t || tagIsT t
  | .tst => tagInt t
  | _ => tagNotMx t

/-- One element of a compare: its result and NV. -/
def VCmp.elem (o : VCmp) (t a b : Nat) : Bool × BitVec 5 :=
  if tagIsF t || tagIsT t then
    let x := decodeTag t a
    let y := decodeTag t b
    let sig := flagIf (x.isSig || y.isSig) fNV
    let any := flagIf (x.isNan || y.isNan) fNV
    match o with
    | .eq => (x.eq y, sig)
    | .ne => (!x.eq y, sig)
    | .lt => (x.lt y, any)
    | .le => (x.le y, any)
    | .un => (x.isNan || y.isNan, sig)
    | .tst => (a &&& b ≠ 0, 0)
  else
    let v (c : Nat) : Int := if tagIsB t then 1 - 2 * (c % 2 : Nat) else intVal t c
    match o with
    | .eq => (v a = v b, 0)
    | .ne => (v a ≠ v b, 0)
    | .lt => (v a < v b, 0)
    | .le => (v a ≤ v b, 0)
    | .un => (false, 0)
    | .tst => (a &&& b ≠ 0, 0)

def State.vcmp (s : State) (o : VCmp) (d a b m : RegNo) (r : BitVec 3) : Out :=
  let g := s.gN
  let t := s.vtag a
  s.vgate [] (groupOk d g && groupOk a g && groupOk b g && s.maskOk m && s.repOk r)
    (t = s.vtag b && tagReg t = s.ew && o.accepts t) true (s.vready [a] d m && s.readable2 b r)
    (let va := s.group a g
     let act := s.actives m
     let el (i y : Nat) : Bool × BitVec 5 := o.elem t (elemAt va s.ew i) y
     let res (i : Nat) : Bool × BitVec 5 := el i (s.repElem d b r act s.ew (fun j y => b2n (el j y).1) i)
     .next ((s.vwrite d g s.ew (intTag s.ew) act fun i => (b2n (res i).1, (res i).2)).setFlags
        (vectorFlags (act.map fun i => (res i).1))))

def execVceq (d a b m : RegNo) (r : BitVec 3) (s : State) : Out := s.vcmp .eq d a b m r
def execVcne (d a b m : RegNo) (r : BitVec 3) (s : State) : Out := s.vcmp .ne d a b m r
def execVclt (d a b m : RegNo) (r : BitVec 3) (s : State) : Out := s.vcmp .lt d a b m r
def execVcle (d a b m : RegNo) (r : BitVec 3) (s : State) : Out := s.vcmp .le d a b m r
def execVcun (d a b m : RegNo) (r : BitVec 3) (s : State) : Out := s.vcmp .un d a b m r
def execVctst (d a b m : RegNo) (r : BitVec 3) (s : State) : Out := s.vcmp .tst d a b m r

/-! ### Conversions (R143, R144) -/

/-- vcvt. With the mode RSR it advances SRSEED whatever it rounds, between equal tags and to b1 too (log 79). -/
def execVcvt (d a t : RegNo) (m : RegNo) (sat : BitVec 1) (r : BitVec 3) (s : State) : Out :=
  let g := s.gN
  let t1 := s.vtag a
  let t2 := t.toNat
  let wd := tagReg t2
  let gd := max 1 (g * wd / s.ew)
  let mode := s.rmode r.toNat
  s.vgate [] (groupOk d gd && groupOk a g && s.maskOk m && (wd = s.ew || !overlaps d gd a g))
    (tagReg t1 = s.ew) mode.isSome (s.vready [a] d m && s.writableAs d gd wd s.vlN)
    (let md := mode.getD .rne
     let va := s.group a g
     let res (i : Nat) : Nat × BitVec 5 :=
       let c := elemAt va s.ew i
       let x := decodeTag t1 c
       if t1 = t2 then (c, flagIf x.isSig fNV)
       else
         let q := roundTo t2 md (sat = 1) x (s.rword i)
         (q.code, q.flags)
     .next ((s.vwrite d gd wd t2 (s.activesAt m d gd wd t2 fun i => (res i).1) res).bumpSeed md))

/-! ### Logic and shifts (R145) -/

def State.vlogic (s : State) (d a b m : RegNo) (r : BitVec 3) (acc : Nat → Bool) (f : Nat → Nat → Nat → Nat) : Out :=
  let g := s.gN
  let t := s.vtag a
  s.vgate [] (groupOk d g && groupOk a g && groupOk b g && s.maskOk m && s.repOk r)
    (t = s.vtag b && tagReg t = s.ew && acc t) true (s.vready [a] d m && s.readable2 b r)
    (let va := s.group a g
     let act := s.actives m
     let el (i y : Nat) : Nat := f t (elemAt va s.ew i) y
     .next (s.vwriteQuiet d g s.ew t act fun i => el i (s.repElem d b r act (tagMem t) el i)))

def execVand (d a b m : RegNo) (r : BitVec 3) (s : State) : Out := s.vlogic d a b m r (· ≤ 27) fun _ x y => x &&& y
def execVor (d a b m : RegNo) (r : BitVec 3) (s : State) : Out := s.vlogic d a b m r (· ≤ 27) fun _ x y => x ||| y
def execVxor (d a b m : RegNo) (r : BitVec 3) (s : State) : Out := s.vlogic d a b m r (· ≤ 27) fun _ x y => x ^^^ y
def execVshl (d a b m : RegNo) (r : BitVec 3) (s : State) : Out :=
  s.vlogic d a b m r (fun t => tagIsI t || tagIsN t) fun t x y => x * 2 ^ (y % tagMem t) % 2 ^ tagMem t
def execVshr (d a b m : RegNo) (r : BitVec 3) (s : State) : Out :=
  s.vlogic d a b m r (fun t => tagIsI t || tagIsN t) fun t x y =>
    codeOf (tagMem t) (intVal t x / 2 ^ (y % tagMem t))

/-! ### Movement (R146, R148 to R150) -/

/-- vperm (R146): the index operand is exempt from the tag checks (R129). -/
def execVperm (d a b m : RegNo) (s : State) : Out :=
  let g := s.gN
  s.vgate [] (groupOk d g && groupOk a g && groupOk b g && s.maskOk m && 8 ≤ s.ew && !overlaps d g a g && !overlaps d g b g)
    (tagReg (s.vtag a) = s.ew) true (s.complete a && s.vready [b] d m)
    (let va := s.group a g
     let vb := s.group b g
     .next (s.vwriteQuiet d g s.ew (s.vtag a) (s.actives m) fun i =>
        let x := elemAt vb s.ew i
        if x < s.vlmax then elemAt va s.ew x else 0))

/-- A form that rearranges the elements of one source, which it reads when complete (R146, R149). -/
def State.vmove (s : State) (regs : List RegNo) (d a m : RegNo) (act : List Nat) (f : Nat → Nat → Nat) : Out :=
  let g := s.gN
  s.vgate regs (groupOk d g && groupOk a g && s.maskOk m && !overlaps d g a g) (tagReg (s.vtag a) = s.ew) true
    (s.complete a && s.vready [] d m)
    (let va := s.group a g
     .next (s.vwriteQuiet d g s.ew (s.vtag a) act (f va)))

def execVslide (d a k m : RegNo) (s : State) : Out :=
  s.vmove [k] d a m (s.actives m) fun va i =>
    let x : Int := (i : Int) + (s.getX k).toInt
    if 0 ≤ x ∧ x < (s.vlN : Int) then elemAt va s.ew x.toNat else 0

/-- vexpand (R149): element i takes the source element numbered by the active elements below it. -/
def execVexpand (d a m : RegNo) (s : State) : Out :=
  let act := s.actives m
  s.vmove [] d a m act fun va i => elemAt va s.ew ((act.filter (· < i)).length)

/-- vcompress (R149): element k takes the k-th active element. -/
def execVcompress (d a m : RegNo) (s : State) : Out :=
  let act := s.actives m
  s.vmove [] d a m (List.range act.length) fun va k => elemAt va s.ew (act.getD k 0)

def execVrev (d a m : RegNo) (s : State) : Out :=
  s.vmove [] d a m (s.actives m) fun va i => elemAt va s.ew (s.vlN - 1 - i)

/-- vmatch (R148): the source and the mask are read whole before the first element is written, also where vd covers them
(DEDUCED, log 11). -/
def execVmatch (d a m : RegNo) (s : State) : Out :=
  let g := s.gN
  s.vgate [] (groupOk d g && groupOk a g && s.maskOk m && 16 ≤ s.ew) (tagReg (s.vtag a) = s.ew) true
    (s.complete a && s.vready [] d m)
    (let va := s.group a g
     let act := s.actives m
     let leader (i : Nat) : Nat := (act.find? fun j => elemAt va s.ew j = elemAt va s.ew i).getD i
     .next ((s.vwriteQuiet d g s.ew (intTag s.ew) act leader).setFlags (vectorFlags (act.map fun i => leader i = i))))

/-- vunpack (R150): w-bit fields of the registers from vs1. -/
def execVunpack (d a m : RegNo) (s : State) : Out :=
  let g := s.gN
  let t := s.vtag a
  let w := tagReg t
  let n := ceilDiv (s.vlN * w) s.regBits
  s.vgate [] (groupOk d g && s.maskOk m && n ≤ 8 && a.toNat + n ≤ 32 && !overlaps d g a n) (tagInt t && w < s.ew) true
    (s.vready [] d m && s.readableAs a n w s.vlN)
    (let va := s.group a n
     .next (s.vwriteQuiet d g s.ew (intTag s.ew) (s.actives m) fun i =>
        let c := elemAt va w i
        if tagIsI t then codeOf s.ew (signedOf w c) else c))

/-! ### Reductions (R147) -/

/-- A reduction writes element 0, when VL is not 0. -/
def State.vreduce (s : State) (d a m : RegNo) (acc : Nat → Bool) (c6 : Bool) (f : Nat → List Nat → Nat × BitVec 5) : Out :=
  let g := s.gN
  let t := s.vtag a
  s.vgate [] (groupOk d g && groupOk a g && s.maskOk m) (tagReg t = s.ew && acc t) c6 (s.complete a && s.vready [] d m)
    (let va := s.group a g
     let cs := (s.actives m).map fun i => elemAt va s.ew i
     .next (s.vwrite d g s.ew t (if s.vlN = 0 then [] else [0]) fun _ => f t cs))

/-- The f64 sum by blocks of 128 element indices (R60, R147): indices with their codes. -/
def sumF64 (xs : List (Nat × Nat)) : Nat × BitVec 5 :=
  [0, 1].foldl (fun (a : Nat × BitVec 5) b =>
    let q := f64Fold a.1 ((xs.filter fun p => p.1 / 128 = b).map fun p => decodeTag 0 p.2)
    (q.1, a.2 ||| q.2)) (0, 0)

def execVredsum (d a m : RegNo) (s : State) : Out :=
  let g := s.gN
  let t := s.vtag a
  let exact := (tagIsF t && t ≠ 0) || tagIsT t
  let mode := if exact then s.rmode 7 else some .rne
  s.vgate [] (groupOk d g && groupOk a g && s.maskOk m)
    (tagReg t = s.ew && (tagIsF t || tagIsT t || tagIsI t || tagIsN t)) mode.isSome (s.complete a && s.vready [] d m)
    (let va := s.group a g
     let act := s.actives m
     let md := mode.getD .rne
     let res : Nat × BitVec 5 :=
      if exact then
        let p := act.foldl (fun p i => Accum.add (partialSumBits t) (tagLambda t) p (decodeTag t (elemAt va s.ew i))) {}
        let v := p.value (tagLambda t)
        let q := roundTo t md false v.val (s.rword 0)
        (q.code, v.flags ||| q.flags)
      else if t = 0 then sumF64 (act.map fun i => (i, elemAt va s.ew i))
      else (act.foldl (fun v i => (v + elemAt va s.ew i) % 2 ^ s.ew) 0, 0)
     .next ((s.vwrite d g s.ew t (if s.vlN = 0 then [] else [0]) fun _ => res).bumpSeed md))

/-- The largest or smallest value of a tag, for a reduction of no element (R147). -/
def extremeCode (t : Nat) (largest : Bool) : Nat :=
  let w := tagMem t
  if tagIsF t then
    let f := fpFmt t
    (if f.kind = .ieee then f.maxCode + 1 else f.maxCode) + (if largest then 0 else 2 ^ (w - 1))
  else if tagIsT t then (if largest then 2 ^ (w - 1) - 1 else 2 ^ (w - 1) + 1)
  else if tagIsI t then (if largest then 2 ^ (w - 1) - 1 else 2 ^ (w - 1))
  else if tagIsB t then (if largest then 0 else 1)
  else if largest then 2 ^ w - 1 else 0

/-- The fold of minimumNumber or maximumNumber, or of the integer order, over codes. -/
def foldExtreme (isMin : Bool) (t : Nat) (cs : List Nat) : Nat × BitVec 5 :=
  match cs with
  | [] => (extremeCode t isMin, 0)
  | c :: r =>
    if tagIsF t || tagIsT t then
      let fl := flagIf ((c :: r).any fun c => (decodeTag t c).isSig) fNV
      let v := r.foldl (fun x c => (if isMin then XV.minNum x (decodeTag t c) else XV.maxNum x (decodeTag t c)).val)
        (decodeTag t c)
      ((roundTo t .rne false (if v.isNan then .nan false else v) 0).code, fl)
    else if tagIsB t then (r.foldl (fun x c => if isMin then x ||| c else x &&& c) c, 0)
    else (r.foldl (fun x c => if isMin then (if intVal t c < intVal t x then c else x)
      else if intVal t x < intVal t c then c else x) c, 0)

def execVredmin (d a m : RegNo) (s : State) : Out := s.vreduce d a m tagNotMx true (foldExtreme true)
def execVredmax (d a m : RegNo) (s : State) : Out := s.vreduce d a m tagNotMx true (foldExtreme false)
def execVredand (d a m : RegNo) (s : State) : Out :=
  s.vreduce d a m tagInt true fun t cs => (cs.foldl (· &&& ·) (2 ^ tagMem t - 1), 0)
def execVredor (d a m : RegNo) (s : State) : Out := s.vreduce d a m tagInt true fun _ cs => (cs.foldl (· ||| ·) 0, 0)
def execVredxor (d a m : RegNo) (s : State) : Out := s.vreduce d a m tagInt true fun _ cs => (cs.foldl (· ^^^ ·) 0, 0)

end Sys2Proof.Machine
end

