-- ==== Sys2Proof/Machine/VectorMem.lean ====
section
/-! DEFINITION. Vector loads, stores and atomics, and the write of part of a byte (R151 to R155, R221, R230, R250 to R252,
R377). -/

namespace Sys2Proof.Machine

/-! ### Part of a byte (R230) -/

/-- `w` bits from bit `b` of the byte at a target replaced, by its owner in one step (R230): the bytes they touch are read
and written together. -/
def State.storeBitsAt (s : State) (c : Ctx) (t : Target) (va : Dword) (b w v : Nat) : Res Unit :=
  let n := (b + w + 7) / 8
  let put (k : Nat) : Nat := natSetBits (s.mem.read k n) b w v
  match t with
  | .raw k => .ok () { (s.touchKey c.core k true) with mem := s.mem.write k n (put k) }
  | .cmem k =>
    let m := s.mem.write k n (put k)
    if cmemFull s.mem m k then .trap { cause := causeCmemFull, tval := va } s
    else .ok () { (s.touchKey c.core k true) with mem := m }
  | .glob pa => .ok () (s.writeLineAt (c.dieFor pa) c.core pa n (put pa))
  | .peer m _ off =>
    s.storePeer m c.slot off va (.storeBits b w (v % 2 ^ w)) c.cls
  | .dec _ _ | .plane _ _ => .trap (addressTrap va) s

/-- A store element below a byte (R154, R225): its bits alone, or its contribution to a range. -/
def State.storeSub (s : State) (c : Ctx) (va : Dword) (b w v : Nat) : Res Unit :=
  (s.reach c va 1 .write (bits := w)).bind fun t s =>
    match t with
    | .dec _ _ => .trap (misalignedTrap va) s
    | .glob pa =>
      match s.rangeAt pa with
      | some r =>
        if w = r.ebits then .ok () (s.contribute c.core r (((r.offOf pa).getD 0 * 8 + b) / r.ebits) (r.ofCode v))
        else .trap (addressTrap va) s
      | none => s.storeBitsAt c t va b w v
    | t => s.storeBitsAt c t va b w v

/-- A load element below a byte: through a plane-form window it is the bits of the view's byte (DEDUCED, log 102). -/
def State.loadSub (s : State) (c : Ctx) (va : Dword) (b w foot : Nat) : Res Nat :=
  (s.reach c va 1 .read).bind fun t s =>
    match t with
    | .dec _ _ => .trap (misalignedTrap va) s
    | t => (s.loadAt c t va 1 foot).bind fun v s => .ok (v / 2 ^ b % 2 ^ w) s

/-! ### Element by element, with restart (R153, R252, R377) -/

/-- The first element of this execution: the restart element, else 0. -/
def State.startElem (s : State) : Nat := s.slot.restart.elim 0 BitVec.toNat

/-- The active elements in ascending order, each performed by `f`; `stop` gives the state that an element's trap or wait
leaves. The trap carries the element (R377); a wait is resumed at the element. -/
def State.eachElem (s : State) (stop : Nat → State → State) (f : Nat → State → Res Unit) : List Nat → Res Unit
  | [] => .ok () s
  | i :: r =>
    match f i s with
    | .ok _ s => s.eachElem stop f r
    | .trap t s => .trap { t with elem := some (BitVec.ofNat 16 i) } (stop i s)
    | .wait s => .wait ((stop i s).upd fun t => { t with restart := some (BitVec.ofNat 16 i) })
    | .miss s => .miss ((stop i s).upd fun t => { t with restart := some (BitVec.ofNat 16 i) })

/-- The registers of the index or offset group, and its element width (R152). -/
def State.indexW (s : State) : Nat := if s.ew = 64 then 64 else 32
def State.indexG (s : State) : Nat := max 1 (s.gN * s.indexW / s.ew)

/-- The offset that element i adds to the base (R152): by mode, with the field of the stride or index. -/
def State.elemOff (s : State) (mode : Nat) (b : RegNo) (i : Nat) : Dword :=
  match mode with
  | 0 => BitVec.ofNat 64 (i * s.ew / 8)
  | 1 => BitVec.ofNat 64 i * s.getX b
  | _ => BitVec.ofInt 64 (signedOf s.indexW (s.elem b s.indexW i))

/-- The address of element i (R152). -/
def State.elemAddr (s : State) (mode : Nat) (a b : RegNo) (i : Nat) : Dword := s.getX a + s.elemOff mode b i

/-- The footprint of a vector load (R221). -/
def State.footprint (s : State) (mode : Nat) (b : RegNo) : Nat :=
  if mode = 1 then
    let k := (s.getX b).toInt.natAbs
    s.vlN * (if k = 0 then s.ew / 8 else k)
  else (s.vlN * s.ew + 7) / 8

/-- The bytes between the lowest and the highest element of a vector access in mode 0 or 1, masked-off ones among them (R276):
what its footprint is compared by, at issue (DEDUCED, log 104). -/
def State.vecEntry (s : State) (mode : Nat) (a b : RegNo) (wr : Bool) : Lock :=
  let base : Int := (s.getX a).toNat
  let n := s.vlN
  let step : Int := if mode = 1 then (s.getX b).toInt else 0
  let far : Int := base + step * (n - 1)
  let size : Int := if mode = 1 then (s.ew / 8 : Nat) else ((n * s.ew + 7) / 8 : Nat)
  { segs := if n = 0 then [] else addrSegs s.ctx (min base far).toNat ((max base far) + size).toNat, wr }

/-- A vector access waits at issue for the commands whose bytes its footprint meets; in modes 2 and 3 each element waits for
itself (R276). -/
def State.vecGate (s : State) (mode : Nat) (a b : RegNo) (wr : Bool) (k : Out) : Out :=
  if mode ≤ 1 && s.meetsEntry s.ctx (s.vecEntry mode a b wr) then .next s.holdOn else k

/-- The element of a lane slice: its accesses keep their place in the slot's order (R232, R234, R235). -/
def State.laneTurn (s : State) (c : Ctx) (off n : Nat) : Res Unit :=
  if off % n ≠ 0 then .trap (misalignedTrap (BitVec.ofNat 64 off)) s else if s.outOfTurn c then .wait s else .ok () s

/-- The lane of an element and its offset in the lane's slice (R152, R155). -/
def State.laneOf (s : State) (i : Nat) : Nat := i * s.ew / 64 % max 1 s.lanes
def State.laneOff (s : State) (a b : RegNo) (i : Nat) : Nat := (s.elemAddr 3 a b i).toNat % 4096

/-- The checks of R66 and R151, and the waits of R26 and R27. -/
def State.vmemGate (s : State) (mode : Nat) (ld : Bool) (d a b m : RegNo) (k : Out) : Out :=
  let g := s.gN
  let ix := 2 ≤ mode
  s.vgate (if mode = 1 then [a, b] else [a])
    (groupOk d g && s.maskOk m && (mode = 0 || 8 ≤ s.ew)
      && (!ix || (groupOk b s.indexG && !(ld && overlaps d g b s.indexG))))
    true true
    ((m = 0 || s.readable m s.vlN) && (!ix || s.readableAs b s.indexG s.indexW s.vlN)
      && (if ld then s.writable d s.vlN else s.readable d s.vlN)) k

/-- A vector load (R151 to R155). -/
def State.vload (s : State) (mode : Nat) (d a b m : RegNo) (k : BitVec 4) : Out :=
  s.vmemGate mode true d a b m <| s.vecGate mode a b false
    (let g := s.gN
     let w := s.ew
     let c := s.ctxC k
     let foot := s.footprint mode b
     let s0 := s.setTag d g (s.moveTag d)
     let act := (s.actives m).filter fun i => s.startElem ≤ i
     let get (i : Nat) (q : State) : Res Nat :=
       if mode = 3 then
         (q.laneTurn c (s.laneOff a b i) (w / 8)).bind fun _ q =>
           .ok (q.mem.read (keyLane s.coreNo (s.laneOf i) (s.laneOff a b i)) (w / 8)) q
       else if w < 8 then q.loadSub c (s.elemAddr 0 a b i) (i * w % 8) w foot
       else q.load c (s.elemAddr mode a b i) (w / 8) foot
     (s0.eachElem (fun i q => q.setProg d g w (some i))
        (fun i q => (get i q).bind fun v q => .ok () (q.setElem d w i (v % 2 ^ tagMem (s.moveTag d)))) act).out
       fun _ q => .next (q.setProg d g w none))

/-- What a store moves of element i: the upper two bits of a 6-bit element are written as zero (R14, R34). -/
def State.storeElem (s : State) (d : RegNo) (w i : Nat) : Nat :=
  s.elem d w i % 2 ^ (if tagReg (s.vtag d) = w then tagMem (s.vtag d) else w)

/-- A vector store (R151 to R155). -/
def State.vstore (s : State) (mode : Nat) (d a b m : RegNo) (k : BitVec 4) : Out :=
  s.vmemGate mode false d a b m <| s.vecGate mode a b true
    (let w := s.ew
     let c := s.ctxC k
     let act := (s.actives m).filter fun i => s.startElem ≤ i
     let put (i : Nat) (q : State) : Res Unit :=
       let v := s.storeElem d w i
       if mode = 3 then
         (q.laneTurn c (s.laneOff a b i) (w / 8)).bind fun _ q => .ok () { q with mem := q.mem.write (keyLane s.coreNo (s.laneOf i) (s.laneOff a b i)) (w / 8) v }
       else if w < 8 then q.storeSub c (s.elemAddr 0 a b i) (i * w % 8) w v
       else q.store { c with elem := i } (s.elemAddr mode a b i) (w / 8) v
     (s.eachElem (fun _ q => q) put act).out fun _ q =>
       .next (if mode ≠ 3 && (s.actives m).any fun i => State.storeRounds c (s.elemAddr mode a b i) (max 1 (w / 8)) then
           (if s.slot.frm = 5 then q.bumpSeed .rsr else q) else q))

def execVld (d a m : RegNo) (c : BitVec 4) (s : State) : Out := s.vload 0 d a 0 m c
def execVlds (d a b m : RegNo) (c : BitVec 4) (s : State) : Out := s.vload 1 d a b m c
def execVldx (d a b m : RegNo) (c : BitVec 4) (s : State) : Out := s.vload 2 d a b m c
def execVldl (d a b m : RegNo) (c : BitVec 4) (s : State) : Out := s.vload 3 d a b m c
def execVst (d a m : RegNo) (c : BitVec 4) (s : State) : Out := s.vstore 0 d a 0 m c
def execVsts (d a b m : RegNo) (c : BitVec 4) (s : State) : Out := s.vstore 1 d a b m c
def execVstx (d a b m : RegNo) (c : BitVec 4) (s : State) : Out := s.vstore 2 d a b m c
def execVstl (d a b m : RegNo) (c : BitVec 4) (s : State) : Out := s.vstore 3 d a b m c

/-! ### Vector atomics (R250 to R252) -/

/-- The lowest address that two active elements share. -/
def lowestDup (as : List Nat) : Option Nat := (as.filter fun a => 2 ≤ as.count a).min?

/-- A vector atomic. -/
def State.vamo (s : State) (aop : Nat) (d a : RegNo) (aq rl : BitVec 1) (sc : BitVec 3) (k : BitVec 4) (w : BitVec 2) : Out :=
  let g := s.gN
  let gd := if aop = 3 then 2 * g else g
  s.vgate [] (s.ew = 64 && groupOk a g && groupOk d gd && !overlaps a g d gd) true true
    (s.complete a && s.writable d s.vlN && s.readable d s.vlN && (aop ≠ 3 || s.readable (d + BitVec.ofNat 5 g) s.vlN))
    (let addr (i : Nat) : Nat := s.elem a 64 i
     let act := (List.range s.vlN).filter fun i => addr i ≠ 0
     let s0 := s.setTag d g (s.moveTag d)
     if act = [] then .next (s0.setProg d g 64 none)
     else
       match lowestDup (act.map addr) with
       | some t => s.trap { cause := causeVdupaddr, tval := BitVec.ofNat 64 t }
       | none =>
         let c := s.ctxC k
         let size := if w = 0 then 4 else 8
         let one (i : Nat) (q : State) : Res Unit :=
           (q.amo c (BitVec.ofNat 64 (addr i)) aop size (s.elem d 64 i) (s.elem (d + BitVec.ofNat 5 g) 64 i)).bind
             fun old q => .ok () (if aop = 1 then q
               else q.setElem d 64 i (if w = 0 then (sextBytes 4 old).toNat else old))
         let go : Out :=
           (s0.eachElem (fun i q => q.setProg d g 64 (some i)) one (act.filter fun i => s.startElem ≤ i)).out fun _ q =>
             .next ((if aq = 1 then q.syncTime sc.toNat else q).setProg d g 64 none)
         if rl = 1 then s.release sc.toNat go else go)

def execVamoLd (d a : RegNo) (q l : BitVec 1) (sc : BitVec 3) (c : BitVec 4) (w : BitVec 2) (s : State) : Out :=
  s.vamo 0 d a q l sc c w
def execVamoSt (d a : RegNo) (q l : BitVec 1) (sc : BitVec 3) (c : BitVec 4) (w : BitVec 2) (s : State) : Out :=
  s.vamo 1 d a q l sc c w
def execVamoSwap (d a : RegNo) (q l : BitVec 1) (sc : BitVec 3) (c : BitVec 4) (w : BitVec 2) (s : State) : Out :=
  s.vamo 2 d a q l sc c w
def execVamoCas (d a : RegNo) (q l : BitVec 1) (sc : BitVec 3) (c : BitVec 4) (w : BitVec 2) (s : State) : Out :=
  s.vamo 3 d a q l sc c w
def execVamoAdd (d a : RegNo) (q l : BitVec 1) (sc : BitVec 3) (c : BitVec 4) (w : BitVec 2) (s : State) : Out :=
  s.vamo 4 d a q l sc c w
def execVamoAnd (d a : RegNo) (q l : BitVec 1) (sc : BitVec 3) (c : BitVec 4) (w : BitVec 2) (s : State) : Out :=
  s.vamo 5 d a q l sc c w
def execVamoOr (d a : RegNo) (q l : BitVec 1) (sc : BitVec 3) (c : BitVec 4) (w : BitVec 2) (s : State) : Out :=
  s.vamo 6 d a q l sc c w
def execVamoXor (d a : RegNo) (q l : BitVec 1) (sc : BitVec 3) (c : BitVec 4) (w : BitVec 2) (s : State) : Out :=
  s.vamo 7 d a q l sc c w
def execVamoMin (d a : RegNo) (q l : BitVec 1) (sc : BitVec 3) (c : BitVec 4) (w : BitVec 2) (s : State) : Out :=
  s.vamo 8 d a q l sc c w
def execVamoMax (d a : RegNo) (q l : BitVec 1) (sc : BitVec 3) (c : BitVec 4) (w : BitVec 2) (s : State) : Out :=
  s.vamo 9 d a q l sc c w
def execVamoMinu (d a : RegNo) (q l : BitVec 1) (sc : BitVec 3) (c : BitVec 4) (w : BitVec 2) (s : State) : Out :=
  s.vamo 10 d a q l sc c w
def execVamoMaxu (d a : RegNo) (q l : BitVec 1) (sc : BitVec 3) (c : BitVec 4) (w : BitVec 2) (s : State) : Out :=
  s.vamo 11 d a q l sc c w

end Sys2Proof.Machine
end

