-- ==== Sys2Proof/Machine/Ranges.lean ====
section
/-! DEFINITION. Commutative-range declarations, shape records and the bit-field store (R220, R224 to R230, R255 to R261). -/

namespace Sys2Proof.Machine

/-! ### Declaring and dropping a range (R224, R255, R256) -/

/-- The refusal that a descriptor earns by itself (R255, codes 1 to 3), 0 for none. -/
def rangeCode (base len w : Dword) (w3 : Dword) : Nat :=
  let op := (fld w 8 3).toNat
  let t := (fld w 0 5).toNat
  let accepted :=
    match op with
    | 0 => (tagIsF t && t ≠ 0) || tagIsT t || tagIsI t || tagIsN t
    | 1 | 2 => tagIsF t || tagIsT t || tagIsI t || tagIsN t
    | 3 | 4 | 5 => tagIsI t || tagIsN t || tagIsB t
    | _ => false
  if fld w 15 49 ≠ 0 || w.getLsbD 11 || fld w 5 3 ≠ 0 || w3 ≠ 0 then 1
  else if !accepted || 5 ≤ (fld w 12 3).toNat then 2
  else if fld base 0 6 ≠ 0 || fld len 0 6 ≠ 0 || len = 0 || fld base 56 8 ≠ 0 || isLocal base
    || 2 ^ 56 < base.toNat + len.toNat || (base.toNat < 0xFF000000000000 && 0xFE000000000000 < base.toNat + len.toNat) then 3
  else 0

/-- Every page of a range translated in ascending order with write permission: its physical runs (R255, step 3). -/
def State.rangePages (s : State) (c : Ctx) (off : Nat) : Nat → Dword → Nat → Res (List Run)
  | 0, _, _ => .ok [] s
  | n + 1, va, left =>
    if left = 0 then .ok [] s
    else
      let k := min left (4096 - va.toNat % 4096)
      (s.translate c va .write).bind fun pa s =>
        (State.rangePages s c (off + k) n (va + BitVec.ofNat 64 k) (left - k)).bind fun rs s =>
          .ok ({ pa := pa, off := off, len := k } :: rs) s

def pinLimit : Nat := 24 * 2 ^ 20
def pinQueueLimit : Nat := 8 * 2 ^ 20

def allDies : List DieNo := (List.range 8).map (BitVec.ofNat 3)

/-- A command that every compute die is told of over its seam (R387, R388, R449). -/
def State.messageAll (s : State) : State := allDies.foldl State.messageDie s

/-- The partials that a new range starts from: the values its memory holds (R226, R256). -/
def State.rangeStart (s : State) (r : CRange) : List Partial :=
  (List.range (r.len * 8 / max 1 r.ebits)).map fun e =>
    let bit := e * r.ebits
    let pa := r.paOf (bit / 8)
    r.ofCode (s.mem.read pa ((bit % 8 + r.ebits + 7) / 8) / 2 ^ (bit % 8) % 2 ^ r.ebits)

/-- The release and the acquire of all classes at DEVICE scope around a point of the perform order (R256). -/
def State.syncPoint (s : State) : State := s.syncTime 5

/-- The lines of a range, each with its offset. -/
def CRange.lineOffs (r : CRange) : List (Nat × Nat) :=
  r.runs.flatMap fun u => u.lines.map fun l => (l, u.off + (l * 64 - u.pa))

/-- The lines of a range can be read and written at their homes (R411, R423); `va` is its first address. -/
def State.rangeReady (s : State) (va : Dword) (r : CRange) (k : Out) : Out :=
  match r.lineOffs.find? fun p => s.poisoned p.1 with
  | some p => s.trap (poisonTrap (va + BitVec.ofNat 64 p.2))
  | none =>
    match r.lineOffs.find? fun p => s.hostHolds p.1 true with
    | some p => .next (s.sendBisnp p.1 true).holdOn
    | none => k

/-- crange from its descriptor on (R255). A range whose own pages map one line twice is declared: code 4 speaks of lines of
another range (DEDUCED, log 103). -/
def State.declareRange (s : State) (d : RegNo) (v : Nat) : Out :=
  let w (i : Nat) : Dword := BitVec.ofNat 64 (v / 2 ^ (64 * i))
  let code := rangeCode (w 0) (w 1) (w 2) (w 3)
  if code ≠ 0 then .next (s.setX d (BitVec.ofNat 64 code))
  else
    (s.rangePages s.ctx 0 ((w 1).toNat / 4096 + 2) (w 0) (w 1).toNat).out fun runs s =>
      let r : CRange := { runs := runs, rm := fld (w 2) 12 3, op := fld (w 2) 8 3, fmt := fld (w 2) 0 5,
                          parts := [], ucopies := [] }
      if runs.any fun u => !(s.phys u.pa = .device) then .next (s.setX d 3)
      else if runs.any fun u => s.touchesRange u.pa u.len then .next (s.setX d 4)
      else if allDies.any fun k => r.pinned k ≠ 0 && pinLimit < s.pinned k + r.pinned k then .next (s.setX d 5)
      else
        s.rangeReady (w 0) r <| s.release 5
          (let s := (runs.flatMap Run.lines).foldl State.onlyHome s.syncPoint
           let dies := allDies.filter fun k => r.pinned k ≠ 0
           let s := dies.foldl State.touchDie s
           let s : State := { s with ranges := { r with parts := s.rangeStart r } :: s.ranges }
           .next ((dies.foldl State.fitCache s).setX d 0))

def execCrange (d a : RegNo) (s : State) : Out :=
  if s.namesLink [d, a] then s.illegal
  else (s.load s.ctx (s.getX a) 32 32).out fun v s => s.declareRange d v

/-- The final read of a range: every line collected and written at its home, then the partials released (R227, R256). -/
def State.dropRange (s : State) (r : CRange) : State :=
  let s := (r.runs.flatMap Run.lines).foldl (fun s l =>
    match s.rangeAt (l * 64) with
    | some q =>
      let d := homeDie (l * 64)
      (((s.collectLine q l).onlyHome l).stampWrite d l (s.die d).dt).1
    | none => s) s
  { s with ranges := s.ranges.filter fun q => q.base ≠ r.base }

/-- crange.drop (R255, R256): s(rs1) is translated as the address of a store. -/
def execCrangeDrop (d a : RegNo) (s : State) : Out :=
  if s.namesLink [d, a] then s.illegal
  else
    let va := s.getX a
    if fld va 56 8 ≠ 0 then s.trap (addressTrap va)
    else if fld va 0 6 ≠ 0 then s.trap (misalignedTrap va)
    else
      (s.locate s.ctx va 64 .write).out fun t s =>
        match t with
        | .glob pa =>
          match s.ranges.find? fun r => r.base = pa with
          | some r => s.rangeReady va r (s.release 5 (.next ((s.dropRange r).syncPoint.setX d 0)))
          | none => .next (s.setX d 6)
        | _ => .next (s.setX d 6)

/-! ### Shape records (R228, R229, R257 to R260) -/

/-- The parts of `p` bytes of one load: `k` of them, ascending. -/
def State.loadParts (s : State) (c : Ctx) (va : Dword) (p n : Nat) (k : Nat) : Res Nat :=
  (List.range k).foldl (fun (r : Res Nat) i => r.bind fun v s =>
    (s.load c (va + BitVec.ofNat 64 (p * i)) p n).bind fun x s => .ok (v + x * 2 ^ (8 * p * i)) s) (.ok 0 s)

/-- A trap of a part of one load: ADDRESS names the first byte of the load (R242). -/
def Res.ofPart {α : Type} (va : Dword) (r : Res α) : Res α :=
  match r with
  | .trap t s => .trap (if t.cause = causeAddress then addressTrap va else t) s
  | r => r

/-- One load of n bytes, its address a multiple of al, read in parts of p bytes that lie in one line each (R258, R360,
R361). It reaches one row of the map alone (R206). -/
def State.loadWide (s : State) (c : Ctx) (va : Dword) (al p n : Nat) : Res Nat :=
  let last := va + BitVec.ofNat 64 (n - 1)
  if fld va 56 8 ≠ 0 then .trap (addressTrap va) s
  else if va.toNat % al ≠ 0 then .trap (misalignedTrap va) s
  else if fld last 56 8 ≠ 0 || isLocal va ≠ isLocal last || locOf c.core va n = .bad then .trap (addressTrap va) s
  else (s.loadParts c va p n (n / p)).ofPart va

/-- Word i of a record. -/
def shapeWord (v : BitVec 768) (i : Nat) : Dword := fld v (64 * i) 64
def shapeBase (v : BitVec 768) : Dword := shapeWord v 0
def shapeNxf (v : BitVec 768) : Nat := (fld v 75 2).toNat
def shapeRank (v : BitVec 768) : Nat := (fld v 72 3).toNat
def shapeFmt (v : BitVec 768) : Nat := (fld v 67 5).toNat
def shapeBitoff (v : BitVec 768) : Nat := (fld v 64 3).toNat
def shapeExt (v : BitVec 768) (k : Nat) : Nat := (fld v (128 + 32 * k) 32).toNat
def shapePitch (v : BitVec 768) (k : Nat) : Int := (shapeWord v (4 + k)).toInt
def shapeXf (v : BitVec 768) (j : Nat) : Dword := shapeWord v (8 + j)

/-- The refusal that a record earns, in the order of R257's codes; 0 for none. NXF has two bits, so code 4 never
arises. A transformation word whose OUT tag is reserved (R33) is refused with code 8 (log 87). -/
def shapeCode (v : BitVec 768) : Nat :=
  let t := shapeFmt v
  let ws := tagMem t
  let unit := if tagIsMx t then mxBlockBytes t * 8 else ws
  if fld v 77 51 ≠ 0 || shapeWord v 11 ≠ 0 then 1
  else if 28 ≤ t then 2
  else if shapeRank v = 0 || 4 < shapeRank v then 3
  else if (List.range 4).any fun k => decide (shapeExt v k = 0) = decide (k < shapeRank v) then 5
  else if shapeBitoff v % Nat.gcd unit 8 ≠ 0 then 6
  else if (List.range 4).any fun k => shapePitch v k % (unit : Int) ≠ 0 then 7
  else if (List.range 3).any fun j =>
      if j < shapeNxf v then
        (fld (shapeXf v j) 0 3 = 0 || 4 ≤ (fld (shapeXf v j) 0 3).toNat || 28 ≤ (fld (shapeXf v j) 3 5).toNat)
      else shapeXf v j ≠ 0 then 8
  else 0

/-- 2^63 plus a refusal code. -/
def refusalWord (c : Nat) : Dword := BitVec.ofNat 64 (2 ^ 63 + c)

/-- The shape tables are indexed by the cluster of the module and the entry. -/
def shapeKey (clus e : Nat) : Nat := clus * 1024 + e
def State.shapeEnt (s : State) (clus e : Nat) : ShapeEnt := aget {} s.shapes (shapeKey clus e)
def State.setShape (s : State) (clus e : Nat) (v : ShapeEnt) : State := { s with shapes := aset s.shapes (shapeKey clus e) v }
def handleEntry (h : Dword) : Nat := (fld h 0 10).toNat

/-- The entry that a handle names in a cluster, none where it names no record. -/
def State.shapeOf (s : State) (clus : Nat) (h : Dword) : Option ShapeEnt :=
  let e := s.shapeEnt clus (handleEntry h)
  if e.live && e.seq = fld h 10 22 then some e else none

/-- A command that names a handle, as captured (R259, R260, R344, R351): SRC of a copy, DST of the ROM copy program, and
HANDLE of a stream load. A stopped command has not completed (R382). -/
def Cmd.names (m : Cmd) (h : Dword) : Bool :=
  let k : BitVec 32 := fld h 0 32
  match m.eng.toNat with
  | 0 => fld m.er[8] 0 32 = k || (fld m.er[11] 0 4 = 1 && fld m.er[8] 32 32 = k)
  | 2 => fld m.er[4] 0 32 = k
  | _ => false

/-- A command of any slot of the cluster still names the handle. -/
def State.handleBusy (s : State) (clus : Nat) (h : Dword) : Bool :=
  s.cmds.any fun m => clusOfCore (coreOf m.slot) = clus && m.names h

/-- A command that the slot issued earlier and that names the handle has not completed. -/
def State.ownBusy (s : State) (h : Dword) : Bool := s.cmds.any fun m => m.slot = s.slotNo && m.names h

/-- The entry that a seal takes, where R258 leaves the choice open: the lowest free one of the cluster's table, not live and
named by no command (DESIGN CHOICE, log 100). -/
def State.freeShape (s : State) (clus : Nat) : Option Nat :=
  (List.range 1024).find? fun e =>
    let x := s.shapeEnt clus e
    !x.live && !s.handleBusy clus (BitVec.ofNat 64 ((x.seq - 1).toNat * 1024 + e))

/-- A record's 96 bytes, read as one load aligned to 32 (R258). -/
def State.loadShape (s : State) (c : Ctx) (va : Dword) : Res (BitVec 768) :=
  (s.loadWide c va 32 32 96).bind fun v s => .ok (BitVec.ofNat 768 v) s

def execShapeSeal (d a : RegNo) (s : State) : Out :=
  if s.namesLink [d, a] then s.illegal
  else
    (s.loadShape s.ctx (s.getX a)).out fun img s =>
      let clus := clusOfCore s.coreNo
      if shapeCode img ≠ 0 then .next (s.setX d (refusalWord (shapeCode img)))
      else
        match s.freeShape clus with
        | none => .next (s.setX d (refusalWord 9))
        | some e =>
          let x := s.shapeEnt clus e
          .next ((s.setShape clus e { seq := x.seq, live := true, addr := s.getX a, image := img }).setX d
            (BitVec.ofNat 64 (x.seq.toNat * 1024 + e)))

/-- shape.fence (R259): the record is read again from the address of its seal; a valid one replaces the entry once the
slot's own commands that name the handle have completed. -/
def execShapeFence (d a : RegNo) (s : State) : Out :=
  if s.namesLink [d, a] then s.illegal
  else
    let h := s.getX a
    let clus := clusOfCore s.coreNo
    match s.shapeOf clus h with
    | none => .next (s.setX d (refusalWord 10))
    | some x =>
      if s.ownBusy h then .next s.holdOn
      else
        (s.loadShape s.ctx x.addr).out fun img s =>
          if shapeCode img ≠ 0 then .next (s.setX d (refusalWord (shapeCode img)))
          else .next ((s.setShape clus (handleEntry h) { x with image := img }).setX d 0)

/-- shape.drop (R260). -/
def execShapeDrop (d a : RegNo) (s : State) : Out :=
  if s.namesLink [d, a] then s.illegal
  else
    let h := s.getX a
    let clus := clusOfCore s.coreNo
    match s.shapeOf clus h with
    | none => .next (s.setX d (refusalWord 10))
    | some x =>
      if s.ownBusy h then .next s.holdOn
      else .next ((s.setShape clus (handleEntry h) { x with seq := x.seq + 1, live := false }).setX d 0)

/-! ### The bit-field store (R261) -/

/-- The width, the address and the bit of a bit-field store. -/
def State.bitField (s : State) (a f : RegNo) : Nat × Dword × Nat :=
  let w := s.getX f
  let off : Int := (fld w 8 56).toInt
  ((fld w 0 6).toNat + 1, s.getX a + BitVec.ofInt 64 (off / 8), (off % 8).toNat)

def execStBits (d a f : RegNo) (s : State) : Out :=
  if s.namesLink [d, a, f] then s.illegal
  else
    let (w, va, b) := s.bitField a f
    let last := va + BitVec.ofNat 64 ((b + w - 1) / 8)
    let n := (b + w - 1) / 8 + 1
    if fld va 56 8 ≠ 0 then s.trap (addressTrap va)
    else if va.toNat / 8 ≠ last.toNat / 8 then s.trap (misalignedTrap va)
    else
      (s.target s.ctx va n .write true).out fun t s =>
        if s.waits s.ctx t va n true then .next s.holdOn
        else (s.storeBitsAt s.ctx t va b w (s.getX d).toNat).out fun _ s => .next s

end Sys2Proof.Machine
end

