-- ==== Sys2Proof/Machine/Control.lean ====
section
/-! DEFINITION. Branches, jumps and the loop sequencer (R30 to R32, R103 to R106, R116 to R118). A meaning sets where the
slot goes next; the step moves it there. -/

namespace Sys2Proof.Machine

/-- Where the slot goes after this instruction. -/
def State.jump (s : State) (t : BitVec 56) : State := s.upd fun q => { q with npc := t }

/-- A conditional branch (R103): ILLEGAL inside a loop body (R32). -/
def State.branch (s : State) (a b : RegNo) (o : BitVec 13) (c : Dword → Dword → Bool) : Out :=
  if s.slot.loop then s.illegal
  else s.linkGate [a, b] none
    (.next (if c (s.src [] a) (s.src [a] b) then (s.popLinks [a, b]).jump (s.slot.pc + disp o) else s.popLinks [a, b]))

def execBeq (a b : RegNo) (o : BitVec 13) (s : State) : Out := s.branch a b o fun x y => x = y
def execBne (a b : RegNo) (o : BitVec 13) (s : State) : Out := s.branch a b o fun x y => x ≠ y
def execBlt (a b : RegNo) (o : BitVec 13) (s : State) : Out := s.branch a b o fun x y => x.slt y
def execBge (a b : RegNo) (o : BitVec 13) (s : State) : Out := s.branch a b o fun x y => !x.slt y
def execBltu (a b : RegNo) (o : BitVec 13) (s : State) : Out := s.branch a b o fun x y => x.ult y
def execBgeu (a b : RegNo) (o : BitVec 13) (s : State) : Out := s.branch a b o fun x y => !x.ult y

/-- A branch on a bit of FLAGS (R104). -/
def State.branchFlag (s : State) (o : BitVec 13) (taken : Bool) : Out :=
  if s.slot.loop then s.illegal
  else .next (if taken then s.jump (s.slot.pc + disp o) else s)

def execBfs (k : BitVec 5) (o : BitVec 13) (s : State) : Out := s.branchFlag o (s.slot.flags.getLsbD k.toNat)
def execBfc (k : BitVec 5) (o : BitVec 13) (s : State) : Out := s.branchFlag o (!s.slot.flags.getLsbD k.toNat)

def execJ (o : BitVec 26) (s : State) : Out :=
  if s.slot.loop then s.illegal else .next (s.jump (s.slot.pc + disp o))

/-- jalr (R106): the target is checked before any register is written. -/
def execJalr (d a : RegNo) (i : BitVec 16) (s : State) : Out :=
  if s.slot.loop then s.illegal
  else s.linkGate [a] (some d)
    (let t := s.src [] a + sext i
     if fld t 56 8 ≠ 0 then s.trap (addressTrap t)
     else if fld t 0 2 ≠ 0 then s.trap (misalignedTrap t)
     else .next ((s.retire [a] d (s.slot.pc.setWidth 64 + 4)).jump (fld t 0 56)))

/-! ### The loop sequencer -/

def lctlLevels (w : Dword) : Nat := (fld w 8 3).toNat
def lctlLen (w : Dword) : Nat := (fld w 0 7).toNat
def lcntCur (w : Dword) : Nat := (fld w 32 16).toNat
/-- COUNT, with 0 treated as 1 (R30). -/
def lcntCount (w : Dword) : Nat := max 1 (fld w 0 16).toNat
def lcntSetCur (w : Dword) (c : Nat) : Dword := setFld w 32 (BitVec.ofNat 16 c)
def lstrReg (w : Dword) : RegNo := fld w 51 5
def lstrStride (w : Dword) : Int := (fld w 0 51).toInt

/-- lcount (R116). -/
def execLcount (k a : RegNo) (s : State) : Out :=
  if s.slot.loop then s.illegal
  else s.linkGate [a] none
    (let v := BitVec.ofNat 64 (min (s.src [] a).toNat 65535)
     .next ((s.popLinks [a]).upd fun t => { t with lcnt := t.lcnt.setIfInBounds k.toNat v }))

/-- lstride (R116): STRIDE from rs1, REG the number in the rs2 field. -/
def execLstride (k a r : RegNo) (s : State) : Out :=
  if s.slot.loop then s.illegal
  else s.linkGate [a] none
    (let v : Dword := BitVec.ofNat 64 (r.toNat * 2 ^ 51 + (fld (s.src [] a) 0 51).toNat)
     .next ((s.popLinks [a]).upd fun t => { t with lstr := t.lstr.setIfInBounds k.toNat v }))

/-- The active levels. -/
def Slot.levels (t : Slot) : List Nat := List.range (min 6 (lctlLevels t.lctl))

/-- The first pass: every CUR is 0 (R31), of the active levels (DEDUCED, log 96). -/
def Slot.firstPass (t : Slot) : Bool := t.levels.all fun k => lcntCur (t.lcnt.toList.getD k 0) = 0
/-- The last pass: every CUR equals COUNT − 1 (R31), of the active levels (DEDUCED, log 96). -/
def Slot.lastPass (t : Slot) : Bool :=
  t.levels.all fun k => lcntCur (t.lcnt.toList.getD k 0) = lcntCount (t.lcnt.toList.getD k 0) - 1

/-- Body instruction j issues on this pass (R30). -/
def Slot.issues (t : Slot) (j : Nat) : Bool :=
  (!t.lfirst.getLsbD j || t.firstPass) && (!t.llast.getLsbD j || t.lastPass)

/-- A prefix word occupies two positions with the word it modifies (R86). -/
def isPrefixWord (w : BitVec 32) : Bool := fld w 26 6 = 0x3F

/-- The first position from j that issues on this pass, for at most `fuel` positions. -/
def Slot.nextIssue (t : Slot) : Nat → Nat → Option Nat
  | 0, _ => none
  | fuel + 1, j =>
    if t.body.length ≤ j then none
    else if t.issues j then some j
    else Slot.nextIssue t fuel (if isPrefixWord (t.body.getD j 0) then j + 2 else j + 1)

/-- A stepped register gains a multiple of its stride (R118). R185 and R203 speak of instructions that name a link, and R31 of the
register: with LM = 1 the plain register s28 to s31 is stepped, no link (DEDUCED, log 110). -/
def Slot.stepReg (t : Slot) (r : RegNo) (d : Int) : Slot :=
  if r = 0 then t else { t with x := t.x.set r.toNat (t.x[r.toNat]'r.isLt + BitVec.ofInt 64 d) r.isLt }

/-- The advance of the levels from k outward after a pass (R31): true when the outermost active level wrapped. A handler may
rewrite LCNT and LCTL while LOOP is 0 (R118, R378): a CUR above COUNT − 1 then counts as a wrap, LEVELS 0 ends replay and
LEVELS 7 counts as 6, which R31 leaves open (log 83). -/
def Slot.advance (t : Slot) : List Nat → Slot × Bool
  | [] => (t, true)
  | k :: ks =>
    let c := t.lcnt.toList.getD k 0
    let st := t.lstr.toList.getD k 0
    let n := lcntCount c
    if lcntCur c < n - 1 then
      ({ t with lcnt := t.lcnt.setIfInBounds k (lcntSetCur c (lcntCur c + 1)) }.stepReg (lstrReg st) (lstrStride st), false)
    else
      Slot.advance ({ t with lcnt := t.lcnt.setIfInBounds k (lcntSetCur c 0) }.stepReg (lstrReg st)
        (-(lstrStride st * ((n : Int) - 1)))) ks

/-- The slot at position j of the body. -/
def Slot.atBody (t : Slot) (j : Nat) : Slot :=
  { t with bpos := BitVec.ofNat 6 j, pc := t.bodyPc + BitVec.ofNat 56 (4 * j), npc := t.bodyPc + BitVec.ofNat 56 (4 * j) }

/-- The sequencer moved to the next position that issues, from position j of this pass (R31): the next pass when none is
left, past the body when replay ends. Where a whole pass is suppressed it stands at position 0, and moves on again. -/
def Slot.settle (t : Slot) (j : Nat) : Slot :=
  match t.nextIssue 64 j with
  | some k => t.atBody k
  | none =>
    let (t, ended) := t.advance t.levels
    if ended then
      let past := t.bodyPc + BitVec.ofNat 56 (4 * t.body.length)
      { t with loop := false, pc := past, npc := past }
    else
      match t.nextIssue 64 0 with
      | some k => t.atBody k
      | none => t.atBody 0

/-- The words that loop captures (R117). -/
def State.capture (s : State) (pc : BitVec 56) : Nat → Res (List (BitVec 32))
  | 0 => .ok [] s
  | n + 1 => (s.fetchAt pc).bind fun w s => (State.capture s (pc + 4) n).bind fun ws s => .ok (w :: ws) s

/-- loop (R117): ILLEGAL inside a body, in a handler entered from a body (R378), and for LEVELS or LEN out of range. -/
def execLoop (s : State) : Out :=
  let t := s.slot
  if t.loop || (t.busy && t.tcause.getLsbD 62) then s.illegal
  else if lctlLevels t.lctl = 0 || lctlLevels t.lctl = 7 then s.illegal
  else if lctlLen t.lctl = 0 || 64 < lctlLen t.lctl then s.illegal
  else
    (s.capture (t.pc + 4) (lctlLen t.lctl)).out fun ws s =>
      .next (s.upd fun t =>
        let cur := t.levels.foldl (fun (l : Vector Dword 6) k =>
          l.setIfInBounds k (lcntSetCur (l.toList.getD k 0) 0)) t.lcnt
        Slot.settle { t with body := ws, bodyPc := t.pc + 4, lcnt := cur, loop := true } 0)

end Sys2Proof.Machine
end

