-- ==== Sys2Proof/Machine/Queues.lean ====
section
/-! DEFINITION. Continuation records, the region tree and its counters, queues, and how a slot waits for room, finishes
and leaves (R157, R159 to R164, R168, R173 to R177, R190, R194, R198, R340). -/

namespace Sys2Proof.Machine

/-! ### Continuation records (R157) -/

def Rec.pc (r : Rec) : BitVec 56 := fld r.w0 0 56
def Rec.lm (r : Rec) : Bool := r.w0.getLsbD 56
def Rec.team (r : Rec) : Bool := r.w0.getLsbD 57
def Rec.resume (r : Rec) : Bool := r.w0.getLsbD 58
def Rec.depth (r : Rec) : BitVec 8 := fld r.w1 48 8
def Rec.region (r : Rec) : BitVec 32 := fld r.w1 0 32

/-- A reserved bit of bytes 0 to 15 is set, RESUME counted among them (R157, R192). -/
def Rec.reservedSet (r : Rec) : Bool := fld r.w0 58 6 ≠ 0 || fld r.w1 59 5 ≠ 0

def Rec.setDepth (r : Rec) (d : Nat) : Rec := { r with w1 := setFld r.w1 48 (BitVec.ofNat 8 d) }

/-- A record from its 64 bytes as a little-endian number. -/
def Rec.ofNat (v : Nat) : Rec :=
  let w (i : Nat) : Dword := BitVec.ofNat 64 (v / 2 ^ (64 * i))
  { w0 := w 0, w1 := w 1, key := w 2, arg0 := w 3, arg1 := w 4, arg2 := w 5, arg3 := w 6, fp := w 7 }

def Rec.toNat (r : Rec) : Nat :=
  [r.fp, r.arg3, r.arg2, r.arg1, r.arg0, r.key, r.w1, r.w0].foldl (fun v w => v * 2 ^ 64 + w.toNat) 0

/-! ### The region tree (R160, R161, R164, R190) -/

/-- The handles from a region up to its root, itself first. -/
def State.pathFrom (s : State) : Nat → BitVec 32 → List (BitVec 32)
  | 0, _ => []
  | n + 1, h =>
    match s.region h with
    | none => []
    | some r => h :: (if r.parent = 0 then [] else State.pathFrom s n r.parent)

def State.path (s : State) (h : BitVec 32) : List (BitVec 32) := s.pathFrom (s.regions.length + 1) h

/-- The root of a live region's tree. -/
def State.treeRoot (s : State) (h : BitVec 32) : Option (BitVec 32) := (s.path h).getLast?

/-- Two live regions lie in one tree. -/
def State.sameTree (s : State) (a b : BitVec 32) : Bool := (s.treeRoot a).isSome && s.treeRoot a = s.treeRoot b

/-- A region and its descendants. -/
def State.subtree (s : State) (h : BitVec 32) : List (BitVec 32) :=
  (s.regions.filter fun r => (s.path r.handle).contains h).map Region.handle

def State.modRegion (s : State) (h : BitVec 32) (f : Region → Region) : State :=
  { s with regions := s.regions.map fun r => if r.handle = h then f r else r }

/-! ### Counters of an RCB (R163) -/

def ctrResident : Nat := 0x30
def ctrDispatched : Nat := 0x38
def ctrRetired : Nat := 0x40
def ctrTeams : Nat := 0x48
def ctrLimits : Nat := 0x50
def ctrDrops : Nat := 0x58

/-- A write performed at a line's home. -/
def State.putHome (s : State) (pa n v : Nat) : State :=
  let d := homeDie pa
  let (s, _) := s.stampWrite d (pa / 64) (s.die d).dt
  { s with mem := s.mem.write pa n v }

/-- A write of the module's hardware performed at its home: of a value, or a sum. -/
def State.performWr (s : State) (w : HomeWr) : State :=
  s.putHome w.pa w.n (if w.add then (s.mem.read w.pa w.n + w.v) % 2 ^ (8 * w.n) else w.v)

/-- A write that the module's hardware performs at a line's home (R163, R390): where the host may hold the line, it waits
there for the answer to BISnpInv (R411). -/
def State.hardWrite (s : State) (w : HomeWr) : State :=
  if s.hostHolds (w.pa / 64) true then { (s.sendBisnp (w.pa / 64) true) with deferred := s.deferred ++ [w] }
  else s.performWr w

def State.homeWrite (s : State) (pa n v : Nat) : State := s.hardWrite { pa, n, v }

/-- The host has given up a line: the writes that wait at its home are performed, in order (R411). -/
def State.settleLine (s : State) (line : Nat) : State :=
  (s.deferred.filter fun w => w.pa / 64 = line).foldl State.performWr
    { s with deferred := s.deferred.filter fun w => w.pa / 64 ≠ line }

/-- Memory with the writes that wait at their homes. -/
def State.settledMem (s : State) : Memory :=
  s.deferred.foldl (fun (m : Memory) w =>
    m.write w.pa w.n (if w.add then (m.read w.pa w.n + w.v) % 2 ^ (8 * w.n) else w.v)) s.mem

/-- The bytes at a home with the writes that wait there. -/
def State.peek (s : State) (pa n : Nat) : Nat := s.settledMem.read pa n

/-- An atomic add to a counter of one region's RCB image. -/
def State.bump (s : State) (h : BitVec 32) (off : Nat) (d : Int) : State :=
  match s.region h with
  | none => s
  | some r => s.hardWrite { pa := r.rcb + off, n := 8, v := codeOf 64 d, add := true }

/-- RESIDENT of a region and of every ancestor (R163, R164). -/
def State.bumpResident (s : State) (h : BitVec 32) (d : Int) : State :=
  (s.path h).foldl (fun s r => s.bump r ctrResident d) s

/-- The value of RESIDENT of a region. -/
def State.resident (s : State) (h : BitVec 32) : Nat :=
  (s.region h).elim 0 fun r => s.peek (r.rcb + ctrResident) 8

/-- R164: n more slots stay within the budget of the region and of every ancestor. -/
def State.withinBudget (s : State) (h : BitVec 32) (n : Nat) : Bool :=
  (s.path h).all fun r =>
    (s.region r).elim false fun g => g.budget = 0xFFFFFFFF || s.resident r + n ≤ g.budget.toNat

/-! ### Queues (R173 to R177) -/

def State.queue (s : State) (q : Nat) : Option Queue := s.queues.find? fun k => k.num.toNat = q

def State.modQueue (s : State) (q : BitVec 12) (f : Queue → Queue) : State :=
  { s with queues := s.queues.map fun k => if k.num = q then f k else k }

/-- Room for one more entry beside the emitters that already wait (R176). -/
def Queue.room (q : Queue) : Bool := q.entries.length + q.waiters.length < q.cap

/-- An entry added in arrival order, with QUEUE and REGION written (R174, R175) and PRIO 0 until the dispatcher writes
it; the queue's die is in use (R449). -/
def State.enqueue (s : State) (q : BitVec 12) (r : Rec) : State :=
  (s.touchDie (queueDie q)).modQueue q fun k =>
    let w : Dword := setFld (setFld (setFld r.w1 56 0#3) 32 (q.setWidth 16)) 0 k.region
    { k with
      entries := k.entries ++ [{ r with w1 := w }]
      since := if k.entries.isEmpty then (s.die (queueDie q)).cycle else k.since }

/-- The entry that the dispatcher would remove next (R174). -/
def Queue.head (q : Queue) : Option Rec :=
  if q.keyed then
    q.entries.foldl (fun b e =>
      match b with
      | none => some e
      | some m => if e.key.toNat < m.key.toNat then some e else some m) none
  else q.entries.head?

/-- The entries without the first one equal to `e`. -/
def dropFirst (e : Rec) : List Rec → List Rec
  | [] => []
  | x :: r => if x = e then r else x :: dropFirst e r

/-- The entries in the order the dispatcher would remove them (R174): a stable sort by key. -/
def Queue.ordered (q : Queue) : List Rec :=
  if q.keyed then q.entries.foldl (fun l e =>
    (l.filter fun x => x.key.toNat ≤ e.key.toNat) ++ [e] ++ l.filter fun x => e.key.toNat < x.key.toNat) []
  else q.entries

/-- The queue that a thread may enqueue to (R190, R192), none where it traps NOQUEUE. -/
def State.emitQueue (s : State) (q : Nat) : Option Queue :=
  match s.queue q with
  | none => none
  | some k =>
    if s.sameTree k.region s.slot.regionH
        && !(s.slot.mode = 0 && ((s.region k.region).elim 0 fun r => r.mode.toNat) ≠ 0) then some k
    else none

def noqueueTrap (v : Dword) : TrapInfo := { cause := causeNoqueue, tval := v }
def depthTrap (q d : Nat) : TrapInfo := { cause := causeEmitDepth, tval := BitVec.ofNat 64 (q * 2 ^ 16 + d) }

/-- TINFO.DEPTH and TINFO.QUEUE. -/
def Slot.taskDepth (t : Slot) : Nat := (fld t.tinfo 8 8).toNat
def Slot.taskQueue (t : Slot) : Nat := (fld t.tinfo 16 16).toNat

/-! ### TEAM (R165 to R168, R170) -/

def Slot.inTeam (t : Slot) : Bool := t.team.getLsbD 31
def Slot.member (t : Slot) : Nat := (fld t.team 0 8).toNat

/-- The team of a slot's member. -/
def State.teamOf (s : State) (n : SlotNo) (t : Slot) : Option Team :=
  if t.inTeam then
    s.teams.find? fun k => k.die = dieOf n && k.clus = fld t.team 24 2 && k.ctx = fld t.team 8 8 && k.slots.contains n
  else none

def State.modTeam (s : State) (k : Team) (f : Team → Team) : State :=
  { s with teams := s.teams.map fun q => if q.die = k.die ∧ q.clus = k.clus ∧ q.ctx = k.ctx then f q else q }

/-! ### Finishing an instruction, leaving a slot -/

/-- The slot moved past the instruction that it has completed: the next position that issues inside a body, the next
address otherwise. -/
def Slot.finish (t : Slot) : Slot :=
  let t := { t with restart := none, arrTok := none }
  if t.loop then t.settle (t.bpos.toNat + (t.npc - t.pc).toNat / 4) else { t with pc := t.npc }

/-- A parked slot that goes on with its next instruction. -/
def Slot.unpark (t : Slot) : Slot := { t with st := .running, park := .none, recd := none }

/-- A parked slot whose condition is met runs the instruction that parked it again (R159), before a trap that is due
(R191). -/
def Slot.rerun (t : Slot) : Slot := { t with st := .running, park := .none, hold := true, woken := true }

/-- A slot with its own items at their reset values (R158): its fault count stays (R379), and the acknowledgements still to
come are counted on. -/
def Slot.cleared (t : Slot) : Slot := { Slot.reset with seq := t.seq, unacked := t.unacked, packets := t.packets }

/-- A slot as it stands when FREE: what the hardware held for its occupant is gone; its registers, the engine registers
among them, stand until a pick-up resets them (R158, R270). -/
def Slot.freed (t : Slot) : Slot :=
  { t.cleared with
    x := t.x, v := t.v, pc := t.pc, npc := t.npc, lm := t.lm, loop := t.loop, mode := t.mode, vill := t.vill
    vreq := t.vreq, vgrp := t.vgrp, vew := t.vew, vl := t.vl, flags := t.flags, fflags := t.fflags, frm := t.frm
    srseed := t.srseed, footh := t.footh, wfmt := t.wfmt, epc := t.epc, tcause := t.tcause, tval := t.tval
    tvec := t.tvec, txval := t.txval, lcnt := t.lcnt, lstr := t.lstr, lfirst := t.lfirst, llast := t.llast
    lctl := t.lctl, body := t.body, bodyPc := t.bodyPc, bpos := t.bpos, er := t.er }

/-- The place of a slot among requests of one cycle: ascending SLOTID, within it ascending COREID (R180). -/
def resetIndex (n : SlotNo) : Nat := (fld n 0 3).toNat * 1024 + (coreOf n).toNat % 1024

/-- Slots in the order in which the dispatcher answers requests that they make in one cycle. -/
def inTurnOrder (ns : List SlotNo) : List SlotNo :=
  ns.foldl (fun l n => (l.filter fun k => resetIndex k ≤ resetIndex n) ++ [n] ++ l.filter fun k => resetIndex n < resetIndex k) []

/-- A slot that becomes FREE: RESIDENT falls along its path, and it asks the dispatcher for work (R159, R164, R180). -/
def State.freeSlot (s : State) (n : SlotNo) : State :=
  let t := s.getSlot n
  let s := s.bumpResident t.regionH (-1)
  (s.setSlot n t.freed).modDie (dieOf n) fun d => { d with reqs := (d.reqs.filter fun q => q ≠ n) ++ [n] }

/-- Commands of a slot that have neither completed nor stopped (R340). -/
def State.liveCmds (s : State) (n : SlotNo) : Bool := s.cmds.any fun m => m.slot = n && !m.stopped

/-- A suspension point waits for the slot's commands (R340). -/
def State.atSuspension (s : State) (k : Out) : Out :=
  if s.liveCmds s.slotNo || !s.slot.fences.isEmpty then .next s.holdOn else k

/-- The commands of a slot, and the invocations they run, end; their entries are released (R382, R389). -/
def State.stopCmds (s : State) (n : SlotNo) : State :=
  { s with cmds := s.cmds.filter fun m => m.slot ≠ n, mcs := s.mcs.filter fun r => r.cmd.slot ≠ n }

/-- The slot enters RETIRING: where its suspension point takes effect, its stopped commands are dropped (R382). -/
def State.retiring (s : State) : State :=
  (s.stopCmds s.slotNo).upd fun t => { t with st := .retiring, park := .none, recd := none }

end Sys2Proof.Machine
end

