-- ==== Sys2Proof/Machine/Tasks.lean ====
section
/-! DEFINITION. Putting records into queues, leaving a slot, waits, team barriers and link status (R166 to R168, R185,
R188 to R204). -/

namespace Sys2Proof.Machine

/-! ### emit and suspend (R192 to R194), yield (R195) -/

/-- The slot parks in the order of a full queue (R176). -/
def State.parkQueue (s : State) (q : BitVec 12) (r : Rec) (leaving : Bool) (launch : Option RegNo) : State :=
  (s.modQueue q fun k => { k with waiters := k.waiters ++ [.slot s.slotNo] }).upd fun t =>
    { t with st := .parked, park := .queue, recd := some r, recQ := q.setWidth 16, leaving, launch }

/-- After the release of R194, the record enqueued or the slot parked; a suspension point then leaves the slot. -/
def State.putRec (s : State) (k : Queue) (r : Rec) (leaving : Bool) : Out :=
  s.release 5
    (if k.room then
      let s := s.enqueue k.num r
      .next (if leaving then s.retiring else s)
     else .next (s.parkQueue k.num r leaving none))

/-- The record that a suspension point of a team member writes carries its TEAM register (R167). -/
def Rec.forMember (r : Rec) (t : Slot) : Rec :=
  if t.inTeam then { r with fp := t.team, w0 := (r.w0 &&& 0xF9FFFFFFFFFFFFFF) ||| 0x0400000000000000 } else r

/-- A member's successor goes to its own die (R190). -/
def State.offDie (s : State) (k : Queue) : Bool := s.slot.inTeam && queueDie k.num ≠ s.dieNo

/-- The image that the instruction has read stays with it while the release at `scope` that follows waits (R193, R194). -/
def State.keepImage (s : State) (scope : Nat) (r : Rec) : State :=
  let b := if s.outstanding 0xFFFF scope then some (BitVec.ofNat 1024 r.toNat) else none
  if s.slot.block = b then s else s.upd fun t => { t with block := b }

/-- The record image at an address, read once and checked (R192, R193), for an enqueue whose release is at `scope`. -/
def State.recordImage (s : State) (scope : Nat) (va : Dword) (k : Rec → State → Out) : Out :=
  let check (r : Rec) (s : State) : Out :=
    if r.reservedSet || fld r.w0 0 2 ≠ 0 then s.trap { cause := causeIllegal, tval := r.w0 } else k r (s.keepImage scope r)
  match s.slot.block with
  | some v => check (Rec.ofNat v.toNat) s
  | none => (s.load s.ctx va 64 64).out fun v s => check (Rec.ofNat v) s

/-- emit and suspend from their checks on. -/
def State.emitBody (s : State) (susp : Bool) (k a q : RegNo) : Out :=
  match s.emitQueue (s.getX q).toNat with
  | none => s.trap (noqueueTrap (s.getX q))
  | some u =>
    if susp && s.offDie u then s.trap (noqueueTrap (s.getX q))
    else
      s.recordImage 5 (s.getX a) fun r s =>
        let r := if k = 0 then r else { r with key := s.getX k }
        let d := s.slot.taskDepth + (if susp then 0 else 1)
        let r := if susp then r.forMember s.slot else r
        if u.maxdepth.toNat < d then s.trap (depthTrap (s.getX q).toNat d)
        else s.putRec u (r.setDepth d) susp

def execEmit (k a q : RegNo) (s : State) : Out :=
  if s.namesLink [k, a, q] then s.illegal else s.emitBody false k a q

def execSuspend (k a q : RegNo) (s : State) : Out :=
  if s.namesLink [k, a, q] || s.slot.loop then s.illegal
  else s.atSuspension (s.emitBody true k a q)

/-- The successor that yield builds (R195). -/
def State.yieldRec (s : State) (k : RegNo) : Rec :=
  let t := s.slot
  ({ w0 := BitVec.ofNat 64 ((t.pc + 4).toNat + b2n t.lm * 2 ^ 56)
     w1 := 0
     key := if k = 0 then t.tkey else s.getX k
     arg0 := s.getX 4
     arg1 := s.getX 5
     arg2 := s.getX 6
     arg3 := s.getX 7
     fp := s.getX 3 } : Rec).forMember t |>.setDepth t.taskDepth

def execYield (k : RegNo) (s : State) : Out :=
  if s.namesLink [k] || s.slot.loop then s.illegal
  else s.atSuspension
    (let q := s.slot.taskQueue
     match s.emitQueue q with
     | none => s.trap (noqueueTrap (BitVec.ofNat 64 q))
     | some u =>
       if s.offDie u then s.trap (noqueueTrap (BitVec.ofNat 64 q))
       else if u.maxdepth.toNat < s.slot.taskDepth then s.trap (depthTrap q s.slot.taskDepth)
       else s.putRec u (s.yieldRec k) true)

/-! ### launch (R169, R196) -/

/-- The queue of the next team: queue i of the first die from (d + t) mod 8 that has one. -/
def State.launchQueue (s : State) (i t : Nat) : Option Queue :=
  (List.range 8).findSome? fun j => s.emitQueue ((s.dieNo.toNat + t + j) % 8 * 512 + i)

/-- The members that a team record asks for (R165). -/
def Rec.teamSize (r : Rec) : Nat := (fld r.fp 32 8).toNat + 1
def Rec.perCore (r : Rec) : Nat := 2 ^ (fld r.fp 40 2).toNat

/-- Team t's record of a launch from its template. -/
def State.launchRec (s : State) (r : Rec) (t : Nat) : Rec :=
  { r with fp := setFld r.fp 0 (BitVec.ofNat 32 t) }.setDepth (s.slot.taskDepth + 1)

/-- One team placed: the record enqueued and sN stepped. -/
def State.placeTeam (s : State) (d : RegNo) (q : BitVec 12) (r : Rec) : State :=
  let v := s.getX d
  let t : BitVec 32 := fld v 32 32
  (s.enqueue q (s.launchRec r t.toNat)).setX d ((t + 1) ++ (fld v 0 32 - 1))

/-- The placement of what remains of a launch, then `fin`: `n` bounds the teams. -/
def State.launchLoop (fin : State → State) (d : RegNo) (i : Nat) (r : Rec) : Nat → State → Out
  | 0, s => .next (fin s)
  | n + 1, s =>
    let t := (fld (s.getX d) 32 32).toNat
    match s.launchQueue i t with
    | none => s.trap (noqueueTrap (BitVec.ofNat 64 i))
    | some u =>
      let q := u.num.toNat
      let dep := s.slot.taskDepth + 1
      if ((s.region u.region).elim 0 fun g => g.budget.toNat) < r.teamSize then s.trap (noqueueTrap (BitVec.ofNat 64 q))
      else if u.maxdepth.toNat < dep then s.trap (depthTrap q dep)
      else if s.outstanding 0xFFFF 5 then .next s.holdOn
      else if u.room then State.launchLoop fin d i r n (s.placeTeam d u.num r)
      else .next (s.parkQueue u.num r false (some d))

def State.launchRest (s : State) (fin : State → State) (d : RegNo) (i : Nat) (r : Rec) : Out :=
  State.launchLoop fin d i r (fld (s.getX d) 0 32).toNat s

def execLaunch (d a i : RegNo) (s : State) : Out :=
  if s.namesLink [d, a, i] then s.illegal
  else if fld (s.getX i) 9 55 ≠ 0 then s.trap (noqueueTrap (s.getX i))
  else
    s.recordImage 5 (s.getX a) fun r s =>
      if !r.team then s.trap { cause := causeIllegal, tval := r.w0 }
      else s.launchRest id d (fld (s.getX i) 0 9).toNat r

/-! ### Room in a queue (R176) -/

/-- The slot at the head of a queue's order, when an entry has left. -/
def Queue.canResume (q : Queue) (w : Waiter) : Bool := q.waiters.head? = some w && q.entries.length < q.cap

/-- QUEUE_ROOM_RESUME: the first thread parked on a full queue completes its enqueue. Where a trap is due, a launch takes it
once the team being placed is enqueued and counted (R191). Where the queue has been unbound, the instruction is run
again. -/
def execQueueRoomResume (s : State) : Out :=
  let s := s.focus s.arg.n
  let t := s.slot
  if t.st ≠ .parked || t.park ≠ .queue then .fault .noObject
  else
    match t.recd, s.queue t.recQ.toNat with
    | some r, some k =>
      if !k.canResume (.slot s.slotNo) then .fault .noObject
      else
        let s := s.modQueue k.num fun k => { k with waiters := k.waiters.drop 1 }
        match t.launch with
        | some d =>
          let go := (s.placeTeam d k.num r).upd fun t => { t.unpark with launch := none }
          let i := k.num.toNat % 512
          if t.trapDue then .next (go.upd fun t => { t with hold := true })
          else go.launchRest (fun s => s.upd Slot.finish) d i r
        | none =>
          let s := s.enqueue k.num r
          .next (if t.leaving then s.retiring.upd fun t => { t with leaving := false }
            else s.upd fun t => t.unpark.finish)
    | _, _ => .next (s.upd Slot.rerun)

/-! ### done and retirement (R159, R167, R168, R197, R198) -/

/-- A team's retirement: TEAMS counts it, its HELD slots become FREE together, its context is free (R167, R168, R180). -/
def State.retireTeam (s : State) (k : Team) : State :=
  let s := s.bump k.region ctrTeams 1
  let s := { s with teams := s.teams.filter fun q => ¬(q.die = k.die ∧ q.clus = k.clus ∧ q.ctx = k.ctx) }
  (inTurnOrder k.slots).foldl (fun s n => if (s.getSlot n).st = .held then s.freeSlot n else s) s

def execDone (s : State) : Out :=
  if s.slot.loop then s.illegal
  else s.atSuspension <| s.release 5
    (let t := s.slot
     let s := s.bump t.regionH ctrRetired 1
     match s.teamOf s.slotNo t with
     | none => .next s.retiring
     | some k =>
       let k' := { k with done := t.member :: k.done }
       let s := (s.modTeam k fun _ => k').retiring
       .next (if k'.done.length = k.size then s.retireTeam k' else s))

/-- SLOT_RETIREMENT: a RETIRING slot becomes FREE, or HELD for a team member whose team is left. A held slot whose member
has a successor asks the dispatcher for it. -/
def execSlotRetirement (s : State) : Out :=
  let n := s.arg.n
  let t := s.getSlot n
  if t.st ≠ .retiring then .fault .noObject
  else
    match s.teamOf n t with
    | none => .next (s.freeSlot n)
    | some k =>
      let s := s.setSlot n { t with st := .held }
      .next (if k.done.contains t.member then s
        else s.modDie (dieOf n) fun d => { d with reqs := d.reqs ++ [n] })

/-! ### Waits (R188, R199, R200) -/

/-- The comparison of a wait, at a size in bits. -/
def waitCond (k : BitVec 3) (w x y : Nat) : Bool :=
  match k.toNat with
  | 0 => x = y
  | 1 => x ≠ y
  | 2 => signedOf w x < signedOf w y
  | 3 => signedOf w y ≤ signedOf w x
  | 4 => x < y
  | _ => y ≤ x

/-- The target of a wait (R242): peer memory traps ADDRESS (R413). -/
def State.reachWait (s : State) (c : Ctx) (va : Dword) (size : Nat) : Res Target :=
  (s.reachOwner c va size .read).bind fun t s =>
    match t with
    | .peer _ _ _ => .trap (addressTrap va) s
    | t => .ok t s

def execWaita (d a b : RegNo) (w : BitVec 1) (k : BitVec 3) (s : State) : Out :=
  if s.namesLink [d, a, b] then s.illegal
  else
    let size := if w = 1 then 8 else 4
    let c := s.ctx
    (s.reachWait c (s.getX a) size).out fun t s =>
      let (x, s) := s.readOwner c t size
      if waitCond k (8 * size) x ((s.getX b).toNat % 2 ^ (8 * size)) then
        .next ((s.syncTime 5).setX d (BitVec.ofNat 64 x))
      else .next (s.parkAt .wait)

/-- The checks of every active element in order: no other effect (R200). -/
def State.checkWaits (c : Ctx) (size : Nat) : List Dword → State → Res (List Target)
  | [], s => .ok [] s
  | a :: r, s =>
    (s.reachWait c a size).bind fun t s => (State.checkWaits c size r s).bind fun ts s => .ok (t :: ts) s

/-- One pass: every element read in order. -/
def State.waitPass (c : Ctx) (size : Nat) (ok : Nat → Bool) : List Target → State → Bool × State
  | [], s => (true, s)
  | t :: r, s =>
    let (x, s) := s.readOwner c t size
    let (b, s) := State.waitPass c size ok r s
    (ok x && b, s)

def execVwait (m a b : RegNo) (w : BitVec 1) (k : BitVec 3) (s : State) : Out :=
  s.vgate [b] (s.ew = 64 && groupOk a s.gN && s.maskOk m) true true
    (s.readable a s.vlN && (m = 0 || s.readable m s.vlN))
    (let size := if w = 1 then 8 else 4
     let c := s.ctx
     let as : List Dword := (s.actives m).map fun i => BitVec.ofNat 64 (s.elem a 64 i)
     let y := (s.getX b).toNat % 2 ^ (8 * size)
     if as.isEmpty then .next (s.syncTime 5)
     else
      (State.checkWaits c size as s).out fun ts s =>
        let (ok, s) := State.waitPass c size (fun x => waitCond k (8 * size) x y) ts s
        .next (if ok then s.syncTime 5 else s.parkAt .wait))

/-- WAIT_WAKE: a parked wait rereads, and completes or parks again. -/
def execWaitWake (s : State) : Out :=
  let s := s.focus s.arg.n
  if s.slot.st = .parked && s.slot.park = .wait then .next (s.upd Slot.rerun) else .fault .noObject

/-! ### Team barriers (R166, R201, R202) -/

/-- The barrier b of a team. -/
def Team.bar (k : Team) (b : RegNo) : TeamBar := k.bars.toList.getD b.toNat {}

/-- The wait for the phase of a token is over. -/
def phaseOver (ph token : BitVec 32) : Bool := let d := (ph - token).toNat; 1 ≤ d && d ≤ 2 ^ 31

/-- The arrival of member j, one indivisible step: the token is the phase it arrived in. -/
def Team.arrive (k : Team) (b : RegNo) (j : Nat) : Team :=
  let q := k.bar b
  let n := q.count + 1
  let q' : TeamBar := if n = k.size then { ph := q.ph + 1, count := 0, arrived := 0 }
    else { q with count := n, arrived := q.arrived ||| (1#256 <<< j) }
  { k with bars := k.bars.setIfInBounds b.toNat q' }

/-- The arrival: it parks while the member's bit of the open phase is set. -/
def State.arrive (s : State) (b : RegNo) (k : Team) (f : BitVec 32 → State → Out) : Out :=
  s.release 3
    (let q := k.bar b
     let j := s.slot.member
     if q.arrived.getLsbD j then .next (s.parkAt (.barrier (fld b 0 4) q.ph false))
     else f q.ph (s.modTeam k fun _ => k.arrive b j))

/-- The wait for the phase of a token. -/
def State.awaitPhase (s : State) (b : RegNo) (token : BitVec 32) (sync : Bool) : Out :=
  match s.teamOf s.slotNo s.slot with
  | none => s.illegal
  | some k =>
    if phaseOver (k.bar b).ph token then .next (s.syncTime 3)
    else .next (s.parkAt (.barrier (fld b 0 4) token sync))

def execBarArrive (d b : RegNo) (s : State) : Out :=
  if s.namesLink [d] then s.illegal
  else
    match s.teamOf s.slotNo s.slot with
    | none => s.illegal
    | some k => s.arrive b k fun token s => .next (s.setX d (token.setWidth 64))

def execBarWait (a b : RegNo) (s : State) : Out :=
  if s.namesLink [a] || !s.slot.inTeam then s.illegal else s.awaitPhase b (fld (s.getX a) 0 32) false

def execBarSync (b : RegNo) (s : State) : Out :=
  match s.teamOf s.slotNo s.slot with
  | none => s.illegal
  | some k =>
    match s.slot.arrTok with
    | some token => s.awaitPhase b token true
    | none => s.arrive b k fun token s => s.awaitPhase b token true

/-- The condition of a slot parked at a barrier is met: the phase it waits for is over, or, where its own arrival waits,
the phase has changed. -/
def State.barrierMet (s : State) (n : SlotNo) (t : Slot) : Bool :=
  match t.park, s.teamOf n t with
  | .barrier b token _, some k => phaseOver (k.bar (b.setWidth 5)).ph token
  | _, _ => false

/-- BAR_WAIT_RESUME: a counted arrival's wait completes; any other barrier instruction is run again. -/
def execBarWaitResume (s : State) : Out :=
  let s := s.focus s.arg.n
  let t := s.slot
  match t.park with
  | .barrier _ _ sync =>
    if t.st ≠ .parked || !s.barrierMet s.slotNo t then .fault .noObject
    else if sync then .next ((s.syncTime 3).upd fun t => t.unpark.finish)
    else .next (s.upd Slot.rerun)
  | _ => .fault .noObject

/-! ### Links (R185, R203, R204) -/

/-- The links that slot `n` is parked on and waits for: those without the words that it pops, or without room (R185). -/
def State.linksShort (s : State) (n : SlotNo) (pops pushes : List (Fin 4)) : List (Fin 4) :=
  let c := coreOf n
  [(0 : Fin 4), 1, 2, 3].filter fun d =>
    (linkWords n ((s.getCore c).links.get d)).length < pops.count d
      || (pushes.contains d && !(neighbour c d).any fun k => ((s.getCore k).links.get (opposite d)).length < 16)

/-- The words and the room that a parked slot waits for are there. -/
def State.linksMet (s : State) (n : SlotNo) (pops pushes : List (Fin 4)) : Bool := (s.linksShort n pops pushes).isEmpty

/-- LINK_PARKED_ISSUE: the slot runs its instruction again. -/
def execLinkParkedIssue (s : State) : Out :=
  let s := s.focus s.arg.n
  match s.slot.st, s.slot.park with
  | .parked, .link _ _ => .next (s.upd Slot.rerun)
  | _, _ => .fault .noObject

/-- Link k of the slot's core by number. -/
def linkNo (k : RegNo) : Fin 4 := Fin.ofNat 4 k.toNat

/-- The stall counter that lkstall reads: 0 at the edge of the grid. -/
def State.stallOf (s : State) (k : RegNo) : Dword :=
  if (neighbour s.coreNo (linkNo k)).isNone then 0 else (s.core.stalls.get (linkNo k)).setWidth 64

def execLkstall (d k : RegNo) (s : State) : Out :=
  if s.namesLink [d] then s.illegal else .next (s.setX d (s.stallOf k))

def execLkstallc (d k : RegNo) (s : State) : Out :=
  if s.namesLink [d] then s.illegal
  else .next ((s.updCore fun c => { c with stalls := c.stalls.set (linkNo k).val 0 (linkNo k).isLt }).setX d (s.stallOf k))

def execLkcount (d k : RegNo) (s : State) : Out :=
  if s.namesLink [d] then s.illegal
  else
    let v := match s.linkRoom (linkNo k) with
      | none => 0
      | some n => ((s.core.links.get (linkNo k)).filter fun w => w.word.isSome).length + n * 2 ^ 16
    .next (s.setX d (BitVec.ofNat 64 v))

end Sys2Proof.Machine
end

