-- ==== Sys2Proof/Machine/Remote.lean ====
section
/-! DEFINITION. Decide-once cells, remote reduce, the peer enqueue, enqueue windows and peer packets (R177, R409, R412 to
R420, R424 to R433). -/

namespace Sys2Proof.Machine

/-! ### Cells (R416 to R419) -/

def cellValue (v : BitVec 128) : Dword := fld v 0 64
def cellGen (v : BitVec 128) : BitVec 32 := fld v 64 32
def cellState (v : BitVec 128) : Nat := (fld v 120 2).toNat

/-- A cell image. -/
def cellImage (st : BitVec 2) (winner : BitVec 24) (gen : BitVec 32) (value : Dword) : BitVec 128 :=
  (0#6 ++ st ++ winner ++ gen) ++ value

inductive CellOp where
  | propose | read | recycle
deriving DecidableEq, Repr

/-- The operation of R418 naming generation h: the status code and the image it leaves. -/
def CellOp.perform (o : CellOp) (v : BitVec 128) (h : BitVec 32) (x : Dword) (who : BitVec 24) : Nat × BitVec 128 :=
  let g := cellGen v
  if cellState v = 3 || fld v 122 6 ≠ 0 then (7, v)
  else if h ≠ g then (if (h - g).toNat < 2 ^ 31 then 3 else 2, v)
  else
    match cellState v, o with
    | 0, .propose => (0, cellImage 1 who g x)
    | 0, _ => (4, v)
    | 1, .propose => (1, v)
    | 1, .read => (5, v)
    | 1, .recycle => (6, cellImage 2 0 (g + 1) 0)
    | _, .propose => (3, v)
    | _, _ => (4, v)

/-- A decided copy of generation h that a die holds (R417). -/
def State.cellCopy (s : State) (d : DieNo) (pa : Nat) (h : BitVec 32) : Option CellCopy :=
  s.cells.find? fun c => c.die = d ∧ c.pa = pa ∧ c.gen = h

/-- A die keeps a decided cell whose home is elsewhere, after a read that returned DECIDED (R417, R434). -/
def State.keepCell (s : State) (d : DieNo) (pa : Nat) (elsewhere : Bool) (img : BitVec 128) : State :=
  if elsewhere && cellState img = 1 then
    { s with cells := { die := d, pa := pa, gen := cellGen img, image := img } ::
        s.cells.filter fun c => ¬(c.die = d ∧ c.pa = pa) }
  else s

/-- The cell operation at the home of its line, one access of 16 bytes (R417), for core `c`: it takes no copy. -/
def State.cellAtHome (s : State) (c : CoreNo) (pa : Nat) (o : CellOp) (h : BitVec 32) (x : Dword) (who : BitVec 24) :
    (Nat × BitVec 128) × State :=
  let v : BitVec 128 := BitVec.ofNat 128 (s.mem.read pa 16)
  let r := o.perform v h x who
  if r.2 = v then (r, (s.readLineAt (homeDie pa) c (pa / 64) false false).1)
  else (r, (s.onlyHome (pa / 64)).writeLineAt (homeDie pa) c pa 16 r.2.toNat)

/-- The identity of the slot that proposes (R426). -/
def State.winnerId (s : State) : BitVec 24 := 0#2 ++ s.nasum.modNo ++ s.slotNo

/-- The result registers of a cell form, and the acquire of WON, LOST and DECIDED (R425). -/
def State.cellResult (s : State) (d : RegNo) (sc st : Nat) (img : BitVec 128) : State :=
  let s := if st = 0 || st = 1 || st = 5 then s.syncTime sc else s
  (s.setX d (cellValue img)).setX (d + 1) (BitVec.ofNat 64 (st * 2 ^ 58 + (fld img 64 58).toNat))

/-- What the release of a recycle waits for: the commands and stores of the slot that are under way (R427). -/
def State.pendOf (s : State) (pa sc : Nat) (g : BitVec 32) : PendRecycle :=
  { pa := pa, slot := s.slotNo, gen := g,
    cmds := if sc = 0 then [] else (s.cmds.filter fun m => m.slot = s.slotNo && !m.stopped).map Cmd.id,
    peer := sc = 6, packets := 4 ≤ sc }

/-- The release of a proposal completes before its access (R425). -/
def State.cellRelease (s : State) (o : CellOp) (sc : Nat) (k : Out) : Out := if o = .propose then s.release sc k else k

/-- The code of an operation in a peer packet. -/
def CellOp.code (o : CellOp) : BitVec 2 :=
  match o with
  | .propose => 0
  | .read => 1
  | .recycle => 2

/-- A cell operation answered by the home or by a peer: a read that returns DECIDED keeps a copy where the home is
elsewhere, a recycle begins its release, and the result is written. -/
def State.cellServed (s : State) (o : CellOp) (d : RegNo) (sc pa : Nat) (elsewhere : Bool) (st : Nat) (img : BitVec 128) :
    State :=
  let s := if o = .read && st = 5 then s.keepCell s.dieNo pa elsewhere img else s
  let s := if st = 6 then { s with recycles := s.pendOf pa sc (cellGen img) :: s.recycles } else s
  s.cellResult d sc st img

/-- The access of a cell form: it waits for the accesses of the slot that come first (R234, R276, R425); a copy on the die, read
with the time of the decision (log 106), serves a read or a proposal of its generation without a message (R417), and `home` does the rest. -/
def State.cellAccess (s : State) (o : CellOp) (d : RegNo) (sc : Nat) (h : BitVec 32) (va : Dword) (t : Target) (pa : Nat)
    (home : Out) : Out :=
  if s.waits s.ctx t va 16 (o ≠ .read) then .next s.holdOn
  else
    match if o = .recycle then none else s.cellCopy s.dieNo pa h with
    | some c =>
      s.cellRelease o sc (.next ((s.noteRead s.coreNo (pa / 64) (s.home (pa / 64)).wts 0).cellResult d sc
        (if o = .read then 5 else 1) c.image))
    | none => home

/-- A cell form (R425, R426). -/
def State.cellForm (s : State) (o : CellOp) (d a : RegNo) (x : Dword) : Out :=
  let w := s.getX d
  let h : BitVec 32 := fld w 0 32
  let sc := (fld w 32 3).toNat
  let va := s.getX a
  if fld w 35 29 ≠ 0 || sc = 7 then s.illegal
  else if fld va 56 8 ≠ 0 then s.trap (addressTrap va)
  else if fld va 0 4 ≠ 0 then s.trap (misalignedTrap va)
  else if isLocal va then s.trap (addressTrap va)
  else
    (s.locate s.ctx va 16 (if o = .read then .read else .write)).out fun t s =>
      match t with
      | .glob pa =>
        if 2 ^ 40 ≤ pa || s.touchesRange pa 16 then s.trap (addressTrap va)
        else s.cellAccess o d sc h va t pa
          ((s.lineReady va t (o ≠ .read)).out fun _ s =>
            s.cellRelease o sc
              (let (r, s) := s.cellAtHome s.coreNo pa o h x s.winnerId
               .next (s.cellServed o d sc pa (homeDie pa ≠ s.dieNo) r.1 r.2)))
      | .peer m pa off =>
        s.cellAccess o d sc h va t pa
          (s.cellRelease o sc
            ((s.askPeer m s.slotNo off va (.cell o.code h x s.winnerId)).out fun v s =>
              -- the image that stood in the peer's memory is free, the operation on it is R418's
              let r := o.perform (BitVec.ofNat 128 v) h x s.winnerId
              .next (s.cellServed o d sc pa true r.1 r.2)))
      | _ => s.trap (addressTrap va)

def execCellPropose (d a v : RegNo) (s : State) : Out :=
  if s.namesLink [d, a, v] then s.illegal else s.cellForm .propose d a (s.getX v)
def execCellRead (d a : RegNo) (s : State) : Out :=
  if s.namesLink [d, a] then s.illegal else s.cellForm .read d a 0
def execCellRecycle (d a : RegNo) (s : State) : Out :=
  if s.namesLink [d, a] then s.illegal else s.cellForm .recycle d a 0

/-- The release of a recycle is complete (R419). -/
def State.recycleDone (s : State) (p : PendRecycle) : Bool :=
  (s.cmds.all fun m => m.stopped || !p.cmds.contains m.id) && !(p.peer && (s.getSlot p.slot).unacked ≠ 0)
    && !(p.packets && (s.getSlot p.slot).packets ≠ 0)

/-- A recycling cell of a generation becomes empty, at its home. -/
def State.emptyCell (s : State) (pa : Nat) (g : BitVec 32) : State :=
  let v : BitVec 128 := BitVec.ofNat 128 (s.mem.read pa 16)
  if cellState v = 2 && cellGen v = g then s.putHome pa 16 (cellImage 0 0 g 0).toNat else s

/-- CELL_RECYCLE_RELEASE_DONE: of the recycles of the cell, one whose release is complete. The home, or the peer that holds
the cell, learns of it. A line that the host may hold is taken back first (R411). -/
def execCellRecycleReleaseDone (s : State) : Out :=
  let mine (p : PendRecycle) : Bool := p.pa = s.arg.pa && s.recycleDone p
  match s.recycles.find? mine with
  | none => .fault .noObject
  | some p =>
    let s' := { s with recycles := s.recycles.eraseP mine }
    match s.phys p.pa with
    | .peer m off => .next (s'.sendPeer m p.slot off (.cell 3 p.gen 0 0))
    | _ =>
      if s.hostHolds (p.pa / 64) true then .next (s.sendBisnp (p.pa / 64) true)
      else .next (s'.emptyCell p.pa p.gen)

/-! ### Remote reduce (R414, R415, R429, R430) -/

/-- The bytes of the page that maps an address: none where translation is physical. -/
def State.pageBytes (s : State) (c : Ctx) (va : Dword) : Option Nat :=
  if c.mode = 2 then none
  else (tlbFind (s.getCore c.core).tlb c.root va).map fun e =>
    match e.level with
    | 2 => 2 ^ 30
    | 1 => 2 ^ 21
    | _ => if e.pte.getLsbD 8 then 2 ^ 16 else 2 ^ 12

def execVrred (v a k m : RegNo) (s : State) : Out :=
  let g := s.gN
  let t := s.vtag v
  let sc := ((s.slot.er[3]).toList.getD (4 + k.toNat) 0)
  if s.namesLink [a] then s.illegal
  else s.vgate [] (groupOk v g && s.maskOk m) (tagReg t = s.ew && !tagIsMx t && !tagIsB t) (fld sc 16 48 = 0)
    (s.readable v s.vlN && (m = 0 || s.readable m s.vlN))
    (let act := s.actives m
     if act = [] then .next s
     else
      let va := s.getX a
      if fld va 56 8 ≠ 0 || isLocal va then s.trap (addressTrap va)
      else
        (s.locate s.ctx va 1 .write).out fun tg s =>
         if s.waits s.ctx tg va (8 * s.vlN) true then .next s.holdOn
         else
          let inPage := (s.pageBytes s.ctx va).elim true fun n => va.toNat % n + 8 * s.vlN ≤ n
          let pk (dest : BitVec 6) (pa : Nat) : ReducePacket :=
            { dest := dest, src := s.nasum.modNo, slot := s.slotNo, pa := pa, tag := BitVec.ofNat 5 t, vl := s.vlN,
              elems := act.map fun i => (i, BitVec.ofNat 64 (s.elem v s.ew i)), sx := fld sc 0 16, ts := s.core.clkts }
          match tg with
          | .glob pa =>
            if 2 ^ 40 ≤ pa || !inPage then s.trap (addressTrap va)
            else .next ((s.post .remoteReducePacket { red := pk s.nasum.modNo pa }).upd
              fun t => { t with packets := t.packets + 1 })
          | .peer d _ off =>
            if !inPage then s.trap (addressTrap va)
            else
              .next ((s.send (.reduce (s.portTo d) (pk d off))).upd fun t => { t with unacked := t.unacked + 1 })
          | _ => s.trap (addressTrap va))

/-- x rounded to a multiple of 2^u with ties to even, in units of 2^u (R293, R414). -/
def unitsRne (x : XV) (u : Int) : Int :=
  match x with
  | .fin b n d =>
    let (q, rem, den) := quotPow n d u
    let k : Nat := if 2 * rem > den || (2 * rem = den && q % 2 = 1) then q + 1 else q
    if b then -(k : Int) else k
  | _ => 0

/-- The partial that an element of a packet contributes (R414). -/
def CRange.packetPart (r : CRange) (tag : Nat) (sx : Int) (code : Nat) : Partial :=
  let t := r.fmt.toNat
  let x := (decodeTag tag code).scale sx
  if r.exact then
    match x with
    | .nan _ => { nan := true }
    | .inf b => { pinf := !b, ninf := b }
    | x => { acc := wrapS (partialSumBits t) (unitsRne x (tagLambda t)) }
  else { acc := (roundTo t .rne false x 0).code }

/-- The address of active element i of a packet. -/
def ReducePacket.elemPa (p : ReducePacket) (r : CRange) (i : Nat) : Nat := p.pa + i * r.ebits / 8

/-- The element of a range that active element i of a packet falls on. -/
def State.packetElem (s : State) (p : ReducePacket) (r : CRange) (i : Nat) : Option Nat :=
  let bit := i * r.ebits
  let pa := p.elemPa r i
  if s.poisoned (pa / 64) then none
  else (r.offOf pa).map fun o => (o * 8 + bit % 8) / r.ebits

/-- A message towards a module: nothing is sent where the routing table leads nowhere (R398). -/
def State.sendTo (s : State) (m : BitVec 6) (x : OutMsg) : State := if s.noRoute m then s else s.send x

/-- The answer to a packet or a peer store goes back to its issuer (R413, R414). -/
def State.answer (s : State) (src : BitVec 6) (n : SlotNo) (a : AckKind) (pkt : Bool) : State :=
  if src = s.nasum.modNo then s.post .acknowledgementReturn { n := n, ack := a, wants := pkt }
  else s.sendTo src (.ack (s.portTo src) src n a)

/-- The contributions of a packet at a line's home, stores of class 0 of the slot that sent it, from which its core goes on;
another module's packet carries no logical time (R234, R239, R241, R404, R430). -/
def State.landPacket (s : State) (p : ReducePacket) (line : Nat) : State :=
  if p.src = s.nasum.modNo then
    let s := s.landAt line p.ts
    let t := (s.home line).wts
    (s.noteWrite (coreOf p.slot) line t).modCore (coreOf p.slot) fun k => k.clkTo t
  else s.landAt line 0

/-- A packet that waits for the host takes its place before those that came after it (R413). -/
def State.postBack (s : State) (i : Instr) (a : EvArgs) : State := { s with inbox := (i, a) :: s.inbox }

/-- REMOTE_REDUCE_PACKET: every element lies in the one range that holds D and no line of the packet is POISON, or it is discarded
whole (R430); the die that it is for is in use (R449). A line that the host may hold is taken back first (R411). -/
def execRemoteReducePacket (s : State) : Out :=
  let p := s.arg.red
  let s := s.messageDie (homeDie p.pa)
  let ok := match if s.poisoned (p.pa / 64) then none else s.rangeAt p.pa with
    | none => none
    | some r =>
      if (r.offOf p.pa).getD 0 * 8 % max 1 r.ebits ≠ 0 then none
      else
        (p.elems.foldl (fun (q : Option (List Partial)) (e : Nat × Dword) =>
          match q, s.packetElem p r e.1 with
          | some ps, some k =>
            some (ps.set k (r.combine (ps.getD k {}) (r.packetPart p.tag.toNat p.sx.toInt e.2.toNat)))
          | _, _ => none) (some r.parts)).map fun ps => { r with parts := ps }
  match ok with
  | some r =>
    match p.elems.find? fun e => s.hostHolds (p.elemPa r e.1 / 64) true with
    | some e => .next ((s.sendBisnp (p.elemPa r e.1 / 64) true).postBack .remoteReducePacket s.arg)
    | none =>
      let lines := (p.elems.map fun e => p.elemPa r e.1 / 64).eraseDups
      .next ((lines.foldl (fun s l => s.landPacket p l) (s.setRange r)).answer p.src p.slot .done true)
  | none => .next (s.answer p.src p.slot .refused true)

/-- ACKNOWLEDGEMENT_RETURN: the store counts as performed; a refused packet counts in DROPS of the issuer's region.
`wants`: the packet stayed within the module. -/
def execAcknowledgementReturn (s : State) : Out :=
  let n := s.arg.n
  let t := s.getSlot n
  let own := s.arg.wants
  let s := if s.arg.ack = .refused then s.bump t.regionH ctrDrops 1 else s
  .next (s.modSlot n fun t => if own then { t with packets := t.packets - 1 } else { t with unacked := t.unacked - 1 })

/-! ### Enqueue windows (R177, R409) and the peer enqueue (R431 to R433) -/

/-- The refusal of a window enqueue, in the order of R432's codes; 0 where it is accepted (DEDUCED, log 105). -/
def State.windowCode (s : State) (q : Nat) (r : Rec) : Nat :=
  match s.queue q with
  | none => 1
  | some k =>
    if !k.win then 1
    else if !k.room then 2
    else if k.maxdepth.toNat < r.depth.toNat then 3
    else if r.reservedSet || fld r.w0 0 2 ≠ 0 then 4
    else 0

/-- A refusal counts at the queue and in DROPS of its region. -/
def State.refuse (s : State) (q : Nat) : State :=
  let s := { s with refused := aset s.refused q (aget 0 s.refused q + 1) }
  match s.queue q with
  | some k => s.bump k.region ctrDrops 1
  | none => s

/-- A write to a queue's window, and its reply (R177, R432); one of another size or place is refused with code 4 (DEDUCED,
log 105). -/
def State.windowWrite (s : State) (q off : Nat) (data : List Byte) : Nat × State :=
  if 0x40 ≤ off then (0, s)
  else if off ≠ 0 || data.length ≠ 64 then (4, s.refuse q)
  else
    let r := Rec.ofNat (natOfBytes data)
    match s.windowCode q r, s.queue q with
    | 0, some k => (0, s.enqueue k.num r)
    | c, _ => (c, s.refuse q)

/-- The word that a penq receives. -/
def penqWord (c : Nat) : Dword := if c = 0 then 0 else refusalWord c

/-- WINDOW_ENQUEUE. -/
def execWindowEnqueue (s : State) : Out :=
  let (c, s) := s.windowWrite s.arg.q.toNat s.arg.pa s.arg.data
  .next (if s.arg.wants then s.post .penqReply { n := s.arg.n, v := penqWord c } else s)

def execPenq (d a t : RegNo) (s : State) : Out :=
  if s.namesLink [d, a, t] then s.illegal
  else
    let w := s.getX t
    let m : BitVec 6 := fld w 16 6
    let own := m = s.nasum.modNo
    if fld w 12 4 ≠ 0 || fld w 22 42 ≠ 0 || (!own && s.noRoute m) then s.trap (noqueueTrap w)
    else
      s.recordImage 6 (s.getX a) fun r s =>
        let dep := s.slot.taskDepth + 1
        let q : BitVec 12 := fld w 0 12
        if 255 < dep then s.trap (depthTrap q.toNat 256)
        else
          s.release 6
            (let data := bytesOfNat 64 (r.setDepth dep).toNat
             let s := if own then
                 s.post .windowEnqueue { n := s.slotNo, q := q.setWidth 16, data := data, wants := true }
               else s.sendPeer m s.slotNo 0 (.enqueue q data)
             .next (s.parkAt (.penq (s.die s.dieNo).cycle own)))

/-- A penq completes with a result. -/
def State.penqDone (s : State) (v : Dword) : State :=
  (s.setX (fld s.slot.ir 21 5) v).upd fun t => t.unpark.finish

/-- The slot held in place awaits the reply of a penq. -/
def Slot.inPenq (t : Slot) : Bool := t.st = .parked && (match t.park with | .penq _ _ => true | _ => false)

/-- PENQ_REPLY: a reply that no penq awaits is dropped. -/
def execPenqReply (s : State) : Out :=
  if (s.getSlot s.arg.n).inPenq then .next ((s.focus s.arg.n).penqDone s.arg.v) else .next s

/-- PENQ_TIMEOUT: 2^24 cycles without a reply. -/
def execPenqTimeout (s : State) : Out :=
  match (s.getSlot s.arg.n).st, (s.getSlot s.arg.n).park with
  | .parked, .penq at_ _ =>
    if at_ + 2 ^ 24 ≤ (s.die (dieOf s.arg.n)).cycle then .next ((s.focus s.arg.n).penqDone (penqWord 5)) else .fault .noObject
  | _, _ => .fault .noObject

/-! ### Peer packets that arrive (R412, R413) -/

/-- The module that a message of the peer group is addressed to. -/
def OutMsg.dest (m : OutMsg) : Option (BitVec 6) :=
  match m with
  | .peer _ p => some p.dest
  | .reduce _ p => some p.dest
  | .ack _ d _ _ => some d
  | .reply _ d _ _ _ => some d
  | _ => none

/-- A message on a peer port. -/
def OutMsg.onPort (m : OutMsg) (port : BitVec 3) : OutMsg :=
  match m with
  | .peer _ p => .peer port p
  | .reduce _ p => .reduce port p
  | .ack _ d n a => .ack port d n a
  | .reply _ d n v x => .reply port d n v x
  | m => m

/-- PACKET_FORWARDING: a packet, an acknowledgement or a reply for another module leaves on the port that the routing table
names. -/
def execPacketForwarding (s : State) : Out :=
  match s.arg.msg.dest with
  | none => .fault .noObject
  | some d => if d = s.nasum.modNo || s.noRoute d then .fault .noObject else .next (s.send (s.arg.msg.onPort (s.portTo d)))

/-- PEER_ACCESS_PACKET: a packet addressed to this module is performed at the line's home as an access of a SYSTEM agent; a
POISON line answers with the poison indication (R423). Its die is in use (R449). -/
def execPeerAccessPacket (s : State) : Out :=
  let p := s.arg.peer
  let answerWith (v : BitVec 512) (x : Bool) (s : State) : State := s.sendTo p.src (.reply (s.portTo p.src) p.src p.slot v x)
  let reply (v : BitVec 512) (s : State) : State := answerWith v false s
  let line := p.pa / 64
  let wr (n v : Nat) (s : State) : State := s.putHome p.pa n v
  let held (w : Bool) (k : State → State) : Out :=
    if s.poisoned line then .next (answerWith 0 true (s.messageDie (homeDie p.pa)))
    else if s.hostHolds line w then
      .next ((s.sendBisnp line w).postBack .peerAccessPacket s.arg)
    else .next (k (s.touchDie (homeDie p.pa)))
  let inRange := s.touchesRange p.pa
  match p.op with
  | .load n =>
    held false fun s =>
      match s.rangeAt p.pa with
      | some r =>
        let s := s.collectLine r line
        reply (BitVec.ofNat 512 (s.mem.read p.pa n)) s
      | none => reply (BitVec.ofNat 512 (s.mem.read p.pa n)) (s.recallOwner line false)
  | .store data =>
    held true fun s =>
      match s.rangeAt p.pa with
      | some r =>
        let bit := (r.offOf p.pa).getD 0 * 8
        if data.length * 8 = r.ebits ∧ bit % r.ebits = 0 then
          let e := bit / r.ebits
          let parts := r.parts.set e (r.combine (r.parts.getD e {}) (r.ofCode (natOfBytes data)))
          ((s.setRange { r with parts }).landAt line (s.die (homeDie p.pa)).dt).answer p.src p.slot .done false
        else s.answer p.src p.slot .done false
      | none => (s.onlyHome line |> wr data.length (natOfBytes data)).answer p.src p.slot .done false
  | .storeBits lo n v =>
    held true fun s =>
      if inRange 1 then s.answer p.src p.slot .done false
      else
        let k := (lo + n + 7) / 8
        (s.onlyHome line |> wr k (natSetBits (s.mem.read p.pa k) lo n v)).answer p.src p.slot .done false
  | .atomic aop n x new =>
    held true fun s =>
      let old := s.mem.read p.pa n
      match if inRange n then none else amoValue aop.toNat (8 * n) old x.toNat new.toNat with
      | none => reply (BitVec.ofNat 512 old) (s.recallOwner line false)
      | some v => reply (BitVec.ofNat 512 old) (s.onlyHome line |> wr n v)
  | .cell op h x who =>
    held (op ≠ 1) fun s =>
      if op = 3 then s.emptyCell p.pa h
      else
        let o : CellOp := if op = 0 then .propose else if op = 1 then .read else .recycle
        let v : BitVec 128 := BitVec.ofNat 128 (s.mem.read p.pa 16)
        let r := o.perform v h x who
        reply ((BitVec.ofNat 6 r.1 ++ (fld r.2 0 122 : BitVec 122)).setWidth 512)
          (if r.2 = v then s.recallOwner line false else s.onlyHome line |> wr 16 r.2.toNat)
  | .enqueue q data =>
    let (c, s) := s.windowWrite q.toNat 0 data
    .next (reply ((penqWord c).setWidth 512) s)

end Sys2Proof.Machine
end

