-- ==== Sys2Proof/Machine/Engine.lean ====
section
/-! DEFINITION. What the engines share: issue, interlock, completion and faults of commands, engine registers, engine
accesses, stage barriers (R270 to R278, R284, R285, R339 to R343, R349, R350, R382). -/

namespace Sys2Proof.Machine

/-! ### Engine registers (R271, R341 to R343) -/

/-- Engine register i of engine e of a slot. -/
def Slot.ereg (t : Slot) (e i : Nat) : Dword := ((t.er.toList.getD e (Vector.replicate 64 0)).toList).getD i 0
def Slot.setEreg (t : Slot) (e i : Nat) (v : Dword) : Slot :=
  { t with er := t.er.setIfInBounds e ((t.er.toList.getD e (Vector.replicate 64 0)).setIfInBounds i v) }

/-- ESTAT after more commands issued and completed, modulo 2^16 each (R271). -/
def Slot.countCmd (t : Slot) (e issued done : Nat) : Slot :=
  let v := t.ereg e 1
  t.setEreg e 1 ((fld v 16 16 + BitVec.ofNat 16 issued).setWidth 64 <<< 16 ||| (fld v 0 16 + BitVec.ofNat 16 done).setWidth 64)

/-- The bits of an engine register that an ereg.w changes: all but the RO fields and the W1C bits. -/
def eregRw (e i : Nat) : Dword :=
  match e, i with
  | _, 0 => 0x7F
  | 3, 21 | 4, 15 => 0
  | 3, 22 => 0xFFFFFFFF
  | _, _ => 0xFFFFFFFFFFFFFFFF

/-- The bits that a 1 clears. -/
def eregW1c (e i : Nat) : Dword :=
  match e, i with
  | 3, 21 | 4, 15 => 0x1F
  | _, _ => 0

/-- Registers whose fields are all RO. -/
def eregRo (e i : Nat) : Bool := i = 1 || (e = 4 && i = 16) || (e = 5 && i = 9) || (e = 6 && i = 10)

/-- Registers that an ereg.w writes only when the slot's commands to the engine have completed or stopped (R310, R343). -/
def eregWaits (e i : Nat) : Bool := (e = 3 && (i = 21 || i = 22)) || (e = 4 && 4 ≤ i) || (e = 6 && i = 11)

/-- Commands of a slot to an engine that have neither completed nor stopped. -/
def State.liveOn (s : State) (n : SlotNo) (e : Nat) : Bool :=
  s.cmds.any fun m => m.slot = n && m.eng.toNat = e && !m.stopped

def execEregW (e : BitVec 3) (i : BitVec 7) (a : RegNo) (s : State) : Out :=
  let e := e.toNat
  let i := i.toNat
  let v := s.getX a
  if s.namesLink [a] || eregRo e i then s.illegal
  else if i = 0 && (fld v 7 57 ≠ 0 || fld v 4 3 = 7) then s.illegal
  else if eregWaits e i && s.liveOn s.slotNo e then .next s.holdOn
  else .next (s.upd fun t =>
    t.setEreg e i (((t.ereg e i &&& ~~~eregRw e i) ||| (v &&& eregRw e i)) &&& ~~~(v &&& eregW1c e i)))

/-- GSTAT of a die's graphics engine (R314). -/
def Gfx.gstat (g : Gfx) : Dword := g.batchNo ++ g.lostTask ++ g.afault ++ g.dropped

def execEregR (e : BitVec 3) (i : BitVec 7) (d : RegNo) (s : State) : Out :=
  if s.namesLink [d] then s.illegal
  else if e = 5 && i = 9 then .next (s.setX d (s.die s.dieNo).gfx.gstat)
  else .next (s.setX d (s.slot.ereg e.toNat i.toNat))

/-! ### Interlock entries (R276) -/

/-- The entry for a range of addresses: local addresses by the bytes they reach. -/
def State.lockOf (_s : State) (c : Ctx) (lo hi : Nat) (wr : Bool) : Lock := { segs := addrSegs c lo hi, wr }

/-- The commands whose entries a new command of the slot to engine e meets: its stopped command is dropped (R382). -/
def State.heldCmds (s : State) (n : SlotNo) (e : Nat) : List Cmd :=
  s.cmds.filter fun m => m.slot = n && !m.finished && !(m.stopped && m.eng.toNat = e)

/-- A byte range of a new command meets one of the slot's entries (R276). -/
def State.meetsHeld (s : State) (n : SlotNo) (e : Nat) (ls : List Lock) : Bool :=
  ls.any fun a => ((s.heldCmds n e).flatMap Cmd.locks).any fun b => a.conflicts b

/-- Room in the engine's queue and in the slot's interlock table, and no conflict (R273, R276). -/
def State.canIssue (s : State) (n : SlotNo) (e : Nat) (ls : List Lock) : Bool :=
  (s.cmds.filter fun m => m.slot = n && m.eng.toNat = e && !m.stopped).length < 16
    && ((s.heldCmds n e).flatMap Cmd.locks).length + ls.length ≤ 32 && !s.meetsHeld n e ls

/-! ### Issue (R273) -/

/-- The window-0 row of R205 whole, and the cluster-window rows without the gaps between them (R206). -/
def cwaOk (a : Dword) : Bool :=
  let o := (fld a 0 48).toNat
  isLocal a && fld a 56 8 = 0
    && (o < 0x100000 || (0x1000000 ≤ o && o < 0x5000000 && (o - 0x1000000) % 0x40000 < spadSize))

/-- Checks 3 and 4 of R273. -/
def State.cwaGate (s : State) (e : Nat) (k : Out) : Out :=
  let a := s.slot.ereg e 2
  if a = 0 then k
  else if !cwaOk a then s.trap (addressTrap a)
  else if fld a 0 3 ≠ 0 then s.trap (misalignedTrap a)
  else k

/-- Check 5 of R273. -/
def State.handleGate (s : State) (hs : List Dword) (k : Out) : Out :=
  match hs.find? fun h => (s.shapeOf (clusOfCore s.coreNo) h).isNone with
  | some h => s.trap { cause := causeNoshape, tval := (fld h 0 32).setWidth 64 }
  | none => k

/-- What a command captures: every register of its engine, the scale registers, SRSEED, FRM, VTYPE and VL; while it waits
it keeps what it has captured (R273). -/
def State.capturedCmd (s : State) (e : Nat) : Cmd :=
  let t := s.slot
  match t.captured with
  | some m => { m with id := s.nextCmd }
  | none =>
    { id := s.nextCmd, slot := s.slotNo, eng := BitVec.ofNat 3 e, word := t.ir,
      er := t.er.toList.getD e (Vector.replicate 64 0),
      sc := Vector.ofFn fun k => t.ereg 3 (4 + k.val),
      srseed := t.srseed, frm := t.frm, wfmt := t.wfmt, ew := t.vew, grp := t.vgrp, vl := t.vl.toNat }

/-- A stopped command is dropped with its entries (R382); the invocations that it had started run on (R347). -/
def State.dropStopped (s : State) (n : SlotNo) (e : Nat) : State :=
  { s with cmds := s.cmds.filter fun m => !(m.slot = n && m.eng.toNat = e && m.stopped) }

/-- The command has captured what it uses and waits for room and for its entries, and with `ready` for the vector registers
that it names; then it issues. -/
def State.issue (s : State) (m : Cmd) (f : State → State) (ready : Bool := true) : Out :=
  let e := m.eng.toNat
  if !ready || !s.canIssue m.slot e m.locks then .next (s.upd fun t => { t with captured := some m }).holdOn
  else
    let s := s.dropStopped m.slot e
    .next (f ({ s with cmds := s.cmds ++ [m], nextCmd := s.nextCmd + 1 }.upd fun t => t.countCmd e 1 0))

/-- A command whose checks have passed is tried again with what it has captured; any other goes through its checks. -/
def State.retryOr (s : State) (e : Nat) (f : Cmd → State → State) (k : Out) (ready : Bool := true) : Out :=
  if s.slot.captured.isSome then s.issue (s.capturedCmd e) (f (s.capturedCmd e)) ready else k

/-! ### A command's steps, completion and fault (R274, R382) -/

/-- The command with a number that an engine still runs. -/
def State.cmd (s : State) (c : Nat) : Option Cmd := s.cmds.find? fun m => m.id = c && !m.stopped

def State.modCmd (s : State) (c : Nat) (f : Cmd → Cmd) : State :=
  { s with cmds := s.cmds.map fun m => if m.id = c then f m else m }

/-- The accesses of the command to the ranges `done` have been performed (R276). -/
def State.releaseEntries (s : State) (c : Nat) (done : Lock → Bool) : State :=
  s.modCmd c fun m => { m with locks := m.entriesAfter done }

/-- Every access of the command has been performed: its entries are released. -/
def State.finishCmd (s : State) (c : Nat) : State := s.modCmd c fun m => { m with finished := true, locks := [] }

/-- The engine's code as TCAUSE reports it. -/
def Cmd.engCode (m : Cmd) : BitVec 4 := m.eng.setWidth 4 + 1

/-- The result of a step: where it stops, the engine fault is brought about and the step has no effect; a wait leaves the
step to be taken again. -/
def Res.step {α : Type} (r : Res α) (s0 : State) (m : Cmd) (f : α → State → Out) : Out :=
  match r with
  | .ok a s => f a s
  | .trap t _ => .next (s0.post .engineFault { c := m.id, trap := { t with eng := m.engCode } })
  | .wait s | .miss s => .next (s0.keepWaits s)

/-- The result of a step that takes no trap: it goes on, or waits without effect. -/
def Res.orWait {α : Type} (r : Res α) (s0 : State) (f : α → State → Out) : Out :=
  match r with
  | .ok a s => f a s
  | .trap _ _ => .next s0
  | .wait s | .miss s => .next (s0.keepWaits s)

/-- The command named by the event's argument, of engine e, that still has steps. -/
def State.onCmd (s : State) (e : Nat) (f : Cmd → Out) : Out :=
  match s.cmd s.arg.c with
  | none => .fault .noObject
  | some m => if m.eng.toNat ≠ e || m.finished then .fault .noObject else f m

/-- The accesses of a command's step wait for those that come first in the slot's order (R234, R275). -/
def State.inTurn (s : State) (m : Cmd) (k : Out) : Out := if m.accesses && s.outOfTurn (s.ctxCmd m) then .next s else k

/-- A step, with accesses, of the command named by the event's argument. -/
def State.withCmd (s : State) (e : Nat) (f : Cmd → Out) : Out := s.onCmd e fun m => s.inTurn m (f m)

/-- The command of another stream position is due first (R277, R308): a plane-engine or chain-engine command starts after
the earlier commands of its stream on the core, and a chain command after every earlier chain command of the core. -/
def Cmd.stream (m : Cmd) : BitVec 4 := fld m.word 0 4
def Cmd.onStream (m : Cmd) : Bool := m.eng = 3 || m.eng = 4
def State.streamReady (s : State) (m : Cmd) : Bool :=
  !(m.onStream && s.cmds.any fun k =>
    !k.stopped && k.id < m.id && coreOf k.slot = coreOf m.slot && k.onStream
      && ((k.stream = m.stream && !k.finished) || (m.eng = 4 && k.eng = 4 && !k.finished)))

/-- The batches that have been closed and are not yet drained. -/
def Gfx.closedBatches (g : Gfx) : List Nat := (g.replay.toList.map fun b => b.no.toNat) ++ g.tiles.map fun t => t.batch.toNat

/-- A gx.end that has closed the open batch, and whose batches have all drained. -/
def State.gxDrained (s : State) (m : Cmd) : Bool :=
  m.eng = 5 && m.gxForm = 3 && 0 < m.pos && !m.snap.any fun b => ((s.die (dieOf m.slot)).gfx.closedBatches).contains b

/-- ENGINE_COMMAND_COMPLETE: the completion word is stored, DONE counts the command (R274). On one stream commands complete
in the order they issued (R274). -/
def execEngineCommandComplete (s : State) : Out :=
  match s.cmd s.arg.c with
  | none => .fault .noObject
  | some m =>
    if !m.finished && !s.gxDrained m then .fault .noObject
    else
      let done (s : State) : State :=
        { s with cmds := s.cmds.filter fun k => k.id ≠ m.id }.modSlot m.slot fun t => t.countCmd m.eng.toNat 0 1
      if m.reg 2 = 0 then .next (done s)
      else if s.outOfTurn (s.ctxDone m) then .next s
      else
        let c := s.ctxDone m
        ((s.target c (m.reg 2) 8 .write).bind fun t s => s.storeAt c t (m.reg 2) 8 (m.reg 3).toNat).step s m
          fun _ s => .next (done s)

/-- ENGINE_FAULT: the command stops at its step boundary and stays in the engine's stopped store, where an earlier one of
the slot and engine is dropped; DONE counts it; a trap becomes due in the slot (R382). -/
def execEngineFault (s : State) : Out :=
  match s.cmd s.arg.c with
  | none => .next s
  | some m =>
    let e := m.eng.toNat
    let s := (s.dropStopped m.slot e).modCmd m.id fun k => { k with stopped := true, finished := false }
    .next (s.modSlot m.slot fun t =>
      { t.countCmd e 0 1 with efaults := t.efaults ++ [{ eng := m.eng, info := s.arg.trap }] })

/-! ### Engine accesses (R275) -/

/-- The physical bytes behind a range of addresses, page by page, as far as the slot's space maps them. -/
def State.physRuns (s : State) (c : Ctx) (k : AccessKind) (lo hi : Nat) : List (Nat × Nat) :=
  (List.range ((hi + 4095) / 4096 - lo / 4096)).filterMap fun i =>
    let a := max lo ((lo / 4096 + i) * 4096)
    let b := min hi ((lo / 4096 + i + 1) * 4096)
    match if isLocal (BitVec.ofNat 64 a) then .trap {} s else s.translate c (BitVec.ofNat 64 a) k with
    | .ok pa _ => some (pa, pa + (b - a))
    | _ => none

/-- A range that a command reads and one that it writes overlap: by their addresses, or by the bytes behind them (R275). -/
def State.rangesMeet (s : State) (c : Ctx) (src dst : Nat × Nat) : Bool :=
  (s.lockOf c src.1 src.2 false).meets (s.lockOf c dst.1 dst.2 true)
    || (c.mode ≠ 2 && (s.physRuns c .read src.1 src.2).any fun x => (s.physRuns c .write dst.1 dst.2).any fun y =>
      x.1 < y.2 && y.1 < x.2)

def byteVa (bit : Int) : Dword := BitVec.ofInt 64 (bit / 8)

/-- One byte read by an engine. -/
def State.engByte (s : State) (c : Ctx) (va : Dword) : Res Nat :=
  if fld va 56 8 ≠ 0 then .trap (addressTrap va) s
  else (s.target c va 1 .read).bind fun t s => s.loadAt c t va 1 1

/-- `n` bytes read one after the other. -/
def State.engBytes (s : State) (c : Ctx) (va : Dword) : Nat → Res Nat
  | 0 => .ok 0 s
  | n + 1 => (s.engByte c va).bind fun b s => (State.engBytes s c (va + 1) n).bind fun r s => .ok (b + 256 * r) s

/-- An element of whole bytes at its own alignment is one access; any other is read byte by byte. -/
def naturalAccess (bit : Int) (n : Nat) : Bool :=
  (n = 8 || n = 16 || n = 32 || n = 64) && bit % (n : Int) = 0

/-- `n` bits from a bit address. -/
def State.engRead (s : State) (c : Ctx) (bit : Int) (n : Nat) : Res Nat :=
  let va := byteVa bit
  if naturalAccess bit n then
    if fld va 56 8 ≠ 0 then .trap (addressTrap va) s
    else (s.target c va (n / 8) .read).bind fun t s => s.loadAt c t va (n / 8) 1
  else
    let lo := (bit % 8).toNat
    (s.engBytes c va ((lo + n + 7) / 8)).bind fun v s => .ok (v / 2 ^ lo % 2 ^ n) s

/-- Bits from bit `lo` of one byte written by an engine, the whole byte or a part. -/
def State.engPut (s : State) (c : Ctx) (va : Dword) (lo n v : Nat) : Res Unit :=
  if n = 8 then
    if fld va 56 8 ≠ 0 then .trap (addressTrap va) s
    else (s.target c va 1 .write).bind fun t s => s.storeAt c t va 1 (v % 256)
  else s.storeSub c va lo n v

/-- `n` bits written from bit `lo` of the byte at an address on, byte by byte: `k` bounds the bytes. -/
def State.engPuts (s : State) (c : Ctx) : Nat → Dword → Nat → Nat → Nat → Res Unit
  | 0, _, _, _, _ => .ok () s
  | k + 1, va, lo, n, v =>
    if n = 0 then .ok () s
    else
      let w := min n (8 - lo)
      (s.engPut c va lo w (v % 2 ^ w)).bind fun _ s => State.engPuts s c k (va + 1) 0 (n - w) (v / 2 ^ w)

/-- `n` bits written at a bit address. -/
def State.engWrite (s : State) (c : Ctx) (bit : Int) (n v : Nat) : Res Unit :=
  let va := byteVa bit
  if naturalAccess bit n then
    if fld va 56 8 ≠ 0 then .trap (addressTrap va) s
    else (s.target c va (n / 8) .write).bind fun t s => s.storeAt c t va (n / 8) v
  else s.engPuts c (n / 8 + 2) va (bit % 8).toNat n v

/-! ### Stage barriers (R284, R285, R349) -/

def sbCap (n : Nat) : BitVec 32 := BitVec.ofNat 32 (min n (2 ^ 32 - 1))

def StageBar.arm (b : StageBar) (n : Nat) : StageBar :=
  match b.st with
  | .idle | .done => { st := if n = 0 then .done else .opened, expect := BitVec.ofNat 32 n, got := 0 }
  | .opened =>
    let e : BitVec 32 := BitVec.ofNat 32 (b.expect.toNat + n)
    { b with expect := e, st := if b.got = e then .done else .opened }
  | .overshoot => b

def StageBar.deliver (b : StageBar) (k : Nat) : StageBar :=
  match b.st with
  | .idle => { b with got := sbCap k, st := .overshoot }
  | .opened =>
    -- the state follows the sum before it saturates (R284)
    let g := b.got.toNat + k
    { b with got := sbCap g, st := if g = b.expect.toNat then .done else if b.expect.toNat < g then .overshoot else .opened }
  | .done => { b with got := sbCap (b.got.toNat + k), st := .overshoot }
  | .overshoot => { b with got := sbCap (b.got.toNat + k) }

/-- The order of one cycle at a barrier: arms, deliveries, resets, judgements (R285). What comes earlier in it than what has
been done in this cycle is done in a later one. -/
def StageBar.turn (b : StageBar) (now r : Nat) : Bool := b.cyc ≠ now || b.rank ≤ r

/-- A barrier after what stands at place `r` of a cycle's order. -/
def StageBar.stamp (b : StageBar) (now r : Nat) : StageBar := { b with cyc := now, rank := r }

def Core.sbar (c : Core) (b : Nat) : StageBar := c.sbars.toList.getD b {}
def Core.setSbar (c : Core) (b : Nat) (v : StageBar) : Core := { c with sbars := c.sbars.setIfInBounds b v }

/-- A stage barrier of a core replaced; on entering DONE or OVERSHOOT its parked waiters are released (R284). -/
def State.setSbar (s : State) (c : CoreNo) (b : Nat) (v : StageBar) : State :=
  let old := ((s.getCore c).sbar b).st
  let s := s.modCore c fun k => k.setSbar b v
  if old ≠ v.st && (v.st = .done || v.st = .overshoot) then
    s.allSlots.foldl (fun s p =>
      if coreOf p.1 = c && p.2.park = .stage (BitVec.ofNat 4 b) then
        s.modSlot p.1 fun t => { t with park := .stageGo (v.st = .done) v.got }
      else s) s
  else s

/-- The cycle of the die that a core is on. -/
def State.nowOf (s : State) (c : CoreNo) : Nat := (s.die (dieOfCore c)).cycle

/-- Bytes delivered at a stage barrier. -/
def State.deliver (s : State) (c : CoreNo) (b k : Nat) : State :=
  if k = 0 then s else s.setSbar c b ((((s.getCore c).sbar b).deliver k).stamp (s.nowOf c) 1)

/-- The barrier that a copy counts at: mq12 (R283). -/
def Cmd.barrier (m : Cmd) : Option (CoreNo × Nat) :=
  let w := m.reg 12
  if w.getLsbD 63 then
    some (BitVec.ofNat 13 (256 * clusOfCore (coreOf m.slot) + (fld w 4 8).toNat), (fld w 0 4).toNat)
  else none

def State.deliverFor (s : State) (m : Cmd) (k : Nat) : State :=
  match m.barrier with
  | some (c, b) => s.deliver c b k
  | none => s

/-- The barrier of a copy can count in this cycle. -/
def State.deliverTurn (s : State) (m : Cmd) : Bool :=
  match m.barrier with
  | some (c, b) => ((s.getCore c).sbar b).turn (s.nowOf c) 1
  | none => true

def State.sbar (s : State) (b : BitVec 4) : StageBar := s.core.sbar b.toNat
def State.now (s : State) : Nat := s.nowOf s.coreNo

/-- A barrier of the core has been judged in this cycle. -/
def State.judged (s : State) (b : BitVec 4) : State :=
  s.updCore fun c => c.setSbar b.toNat ((s.sbar b).stamp s.now 3)

/-- A form of engine 1 counts as issued and done (R349). -/
def State.sbCount (s : State) : State := s.upd fun t => t.countCmd 1 1 1

def overrunTrap (got : BitVec 32) : TrapInfo := { cause := causeStageOverrun, tval := got.setWidth 64 }

def execSbArm (n : RegNo) (b : BitVec 4) (s : State) : Out :=
  if s.namesLink [n] then s.illegal
  else
    let k := (s.getX n).toNat
    let q := s.sbar b
    if 2 ^ 32 ≤ k then s.illegal
    else if !q.turn s.now 0 then .next s.holdOn
    else if q.st = .overshoot then s.trap (overrunTrap q.got)
    else if q.st = .opened && 2 ^ 32 ≤ q.expect.toNat + k then s.illegal
    else .next ((s.setSbar s.coreNo b.toNat ((q.arm k).stamp s.now 0)).sbCount)

def execSbWait (b : BitVec 4) (s : State) : Out :=
  let q := s.sbar b
  match q.st with
  | .done => .next ((s.judged b).syncTime 5).sbCount
  | .overshoot => (s.judged b).sbCount.trap (overrunTrap q.got)
  | _ => .next ((s.judged b).parkAt (.stage b))

def execSbReset (b : BitVec 4) (s : State) : Out :=
  if (s.sbar b).turn s.now 2 then .next ((s.setSbar s.coreNo b.toNat (StageBar.stamp {} s.now 2)).sbCount)
  else .next s.holdOn

def sbCode (st : SbSt) : Dword :=
  match st with
  | .idle => 0
  | .opened => 1
  | .done => 2
  | .overshoot => 3

def execSbState (d : RegNo) (b : BitVec 4) (s : State) : Out :=
  if s.namesLink [d] then s.illegal else .next ((s.judged b).sbCount.setX d (sbCode (s.sbar b).st))

def execSbCount (d : RegNo) (b : BitVec 4) (s : State) : Out :=
  if s.namesLink [d] then s.illegal
  else .next ((s.judged b).sbCount.setX d ((s.sbar b).expect ++ (s.sbar b).got))

/-- SB_WAIT_RESUME: a released waiter completes, or traps STAGE_OVERRUN at its sb.wait. -/
def execSbWaitResume (s : State) : Out :=
  let s := s.focus s.arg.n
  match s.slot.st, s.slot.park with
  | .parked, .stageGo true _ => .next ((s.syncTime 5).sbCount.upd fun t => t.unpark.finish)
  | .parked, .stageGo false got => (s.sbCount.upd Slot.unpark).trap (overrunTrap got)
  | _, _ => .fault .noObject

end Sys2Proof.Machine
end

