-- ==== Sys2Proof/Machine/Copy.lean ====
section
/-! DEFINITION. The memory-core copy, the user programs of the memory cores and the stream-load unit (R281 to R283, R285,
R286, R344 to R347, R351, R352). -/

namespace Sys2Proof.Machine

/-! ### Elements of a shape (R228) -/

/-- The bits that an element takes in memory: a block for an MX tag. -/
def elemBits (t : Nat) : Nat := if tagIsMx t then mxBlockBytes t * 8 else tagMem t

/-- The extents of the dimensions in use. -/
def shapeExts (v : BitVec 768) : List Nat := (List.range (shapeRank v)).map (shapeExt v)

/-- The number of elements. -/
def shapeCount (v : BitVec 768) : Nat := (shapeExts v).foldl (· * ·) 1

/-- The index in each dimension of a flattened index, dimension 0 fastest. -/
def unflatten : List Nat → Nat → List Nat
  | [], _ => []
  | e :: r, n => n % e :: unflatten r (n / e)

/-- The bit address of an element. -/
def shapeBit (v : BitVec 768) (ix : List Nat) : Int :=
  (ix.zipIdx.map fun p => (p.1 : Int) * shapePitch v p.2).sum + ((shapeBase v).toNat * 8 + shapeBitoff v : Nat)

/-- The bounding byte range of the elements (R276). -/
def shapeBounds (v : BitVec 768) : Nat × Nat :=
  let span (k : Nat) : Int := ((shapeExt v k : Int) - 1) * shapePitch v k
  let ks := List.range (shapeRank v)
  let b : Int := ((shapeBase v).toNat * 8 + shapeBitoff v : Nat)
  let lo := b + (ks.map fun k => min 0 (span k)).sum
  let hi := b + (ks.map fun k => max 0 (span k)).sum + elemBits (shapeFmt v)
  ((lo / 8).toNat, ((hi + 7) / 8).toNat)

/-- The interlock entry of a shape. -/
def State.shapeLock (s : State) (c : Ctx) (v : BitVec 768) (wr : Bool) : Lock :=
  s.lockOf c (shapeBounds v).1 (shapeBounds v).2 wr

/-- The record that a command's handle names, as the table holds it now (R259, R273). -/
def State.cmdShape (s : State) (m : Cmd) (h : BitVec 32) : BitVec 768 :=
  (s.shapeEnt (clusOfCore (coreOf m.slot)) (handleEntry (h.setWidth 64))).image

/-! ### The ROM copy program (R283) -/

/-- A dimension of a copy: windowed or not, its origin, its extent at the source and its window's extent. -/
structure CopyDim where
  win : Bool
  org : Nat
  ext : Nat
  wext : Nat
deriving DecidableEq, Repr

def copyDims (src : BitVec 768) (mq9 mq10 : Dword) : List CopyDim :=
  (List.range (shapeRank src)).map fun k =>
    let e := shapeExt src k
    if k < 2 then
      let w := (fld mq10 (32 * k) 32).toNat
      if w = 0 then ⟨true, 0, e, e⟩ else ⟨true, (fld mq9 (32 * k) 32).toNat, e, w⟩
    else ⟨false, 0, e, e⟩

/-- The destination's extent in a dimension for a halo. -/
def CopyDim.out (d : CopyDim) (h : Nat) : Nat := if d.win then d.wext + 2 * h else d.ext

def copyProg (mq11 : Dword) : Nat := (fld mq11 0 4).toNat
def copyEdge (mq11 : Dword) : Nat := (fld mq11 6 2).toNat
def copyHalo (mq11 : Dword) : Nat := (fld mq11 8 4).toNat

/-- The reserved bits and the program of R344, checked for every program. -/
def copyCommonOk (mq11 mq12 : Dword) : Bool :=
  fld mq11 12 52 = 0 && fld mq11 4 2 = 0 && fld mq12 12 51 = 0 && copyProg mq11 ≠ 0 && copyProg mq11 ≠ 2

/-- The operand checks of the ROM copy program. -/
def romCopyOk (src dst : BitVec 768) (mq9 mq10 mq11 : Dword) : Bool :=
  let ds := copyDims src mq9 mq10
  copyEdge mq11 ≠ 3 && shapeRank dst = shapeRank src && shapeFmt dst = shapeFmt src
    && shapeNxf src = 0 && shapeNxf dst = 0
    && shapeExts dst = ds.map (fun d => d.out (copyHalo mq11)) && ds.all fun d => d.org + d.wext ≤ d.ext

/-- Where an element of the destination comes from: the source's index, zero bits, or nothing at all. -/
inductive CopyFrom where
  | elem (ix : List Nat)
  | zero
  | skip
deriving DecidableEq, Repr

def copyFrom (ds : List CopyDim) (h edge : Nat) (ix : List Nat) : CopyFrom :=
  let raw (p : CopyDim × Nat) : Int := if p.1.win then (p.1.org : Int) + p.2 - h else p.2
  let ps := ds.zip ix
  if ps.all fun p => 0 ≤ raw p && raw p < p.1.ext then .elem (ps.map fun p => (raw p).toNat)
  else match edge with
    | 0 => .zero
    | 1 => .elem (ps.map fun p => (min (max (raw p) 0) ((p.1.ext : Int) - 1)).toNat)
    | _ => .skip

/-- What a running copy works on. -/
structure CopyJob where
  src : BitVec 768
  dst : BitVec 768
  dims : List CopyDim
  halo : Nat
  edge : Nat
  /-- what each element of the destination takes, as it stood before an overlapping copy began -/
  snap : List Nat

def State.copyJob (s : State) (m : Cmd) : CopyJob :=
  let src := s.cmdShape m (fld (m.reg 8) 0 32)
  { src, dst := s.cmdShape m (fld (m.reg 8) 32 32), dims := copyDims src (m.reg 9) (m.reg 10),
    halo := copyHalo (m.reg 11), edge := copyEdge (m.reg 11), snap := m.snap }

/-- The bit address that decides an element's memory core (R282): of the source, or of the destination where a local source
goes to a global one; none where the element has no byte there. -/
def CopyJob.decides (j : CopyJob) (di : List Nat) (f : CopyFrom) : Option Int :=
  if isLocal (shapeBase j.src) && !isLocal (shapeBase j.dst) then some (shapeBit j.dst di)
  else match f with
    | .elem si => some (shapeBit j.src si)
    | _ => none

/-- The bits of one element of a copy that lie in one granule: its place in index order, its first bit, its bits. -/
structure CopyPart where
  gran : Option Int
  pos : Nat
  lo : Nat
  n : Nat
deriving DecidableEq, Repr

/-- The bits of a granule: 2 KiB. -/
def granBits : Nat := 16384

/-- An element cut where it crosses a granule (R282). An element without a byte on the deciding side belongs to a piece
without a granule (log 88). -/
def CopyJob.cut (j : CopyJob) (pos : Nat) : List CopyPart :=
  let di := unflatten (shapeExts j.dst) pos
  let f := copyFrom j.dims j.halo j.edge di
  let eb := elemBits (shapeFmt j.src)
  match f with
  | .skip => []
  | f =>
    match j.decides di f with
    | none => [⟨none, pos, 0, eb⟩]
    | some b =>
      let g := b / granBits
      let k := (min (eb : Int) (granBits * (g + 1) - b)).toNat
      ⟨some g, pos, 0, k⟩ :: (if k < eb then [⟨some (g + 1), pos, k, eb - k⟩] else [])

/-- The parts of a copy in index order. -/
def CopyJob.parts (j : CopyJob) : List CopyPart := (List.range (shapeCount j.dst)).flatMap j.cut

/-- The pieces of a copy, one a granule, in the order they are cut. -/
def CopyJob.pieces (j : CopyJob) : List (Option Int) := (j.parts.map CopyPart.gran).eraseDups

/-- The bits of the destination that a part is for: the first, and the one past the last. -/
def CopyJob.bitsOf (j : CopyJob) (p : CopyPart) : Int × Int :=
  let b := shapeBit j.dst (unflatten (shapeExts j.dst) p.pos) + p.lo
  (b, b + p.n)

/-- A run of bits without those of another. -/
def cutRun (r x : Int × Int) : List (Int × Int) :=
  (if r.1 < min r.2 x.1 then [(r.1, min r.2 x.1)] else []) ++ (if max r.1 x.2 < r.2 then [(max r.1 x.2, r.2)] else [])

/-- The runs of bits that a part writes: a bit that a later element of the command has written keeps its value (R275). `laid`:
the parts that have been moved. -/
def CopyJob.runs (j : CopyJob) (laid : List CopyPart) (p : CopyPart) : List (Int × Int) :=
  (laid.filter fun q => p.pos < q.pos).foldl (fun l q => l.flatMap fun r => cutRun r (j.bitsOf q)) [j.bitsOf p]

/-- Runs of bits written, each with its bits of `v`, which stands from bit `b` on. -/
def State.writeRuns (c : Ctx) (b : Int) (v : Nat) : List (Int × Int) → State → Res Unit
  | [], s => .ok () s
  | r :: l, s => (s.engWrite c r.1 (r.2 - r.1).toNat (v / 2 ^ (r.1 - b).toNat % 2 ^ (r.2 - r.1).toNat)).bind fun _ s =>
      State.writeRuns c b v l s

/-- One part moved: bits of the source, or zero bits, to the destination. -/
def State.copyPart (c : Ctx) (j : CopyJob) (laid : List CopyPart) (p : CopyPart) (s : State) : Res Unit :=
  let di := unflatten (shapeExts j.dst) p.pos
  let put (v : Nat) (s : State) : Res Unit := State.writeRuns c (j.bitsOf p).1 v (j.runs laid p) s
  match copyFrom j.dims j.halo j.edge di with
  | .skip => .ok () s
  | .zero => put 0 s
  | .elem si =>
    match j.snap with
    | [] => (s.engRead c (shapeBit j.src si + p.lo) p.n).bind put
    | l => put (l.getD p.pos 0 / 2 ^ p.lo % 2 ^ p.n) s

/-- The parts of one piece moved in index order. -/
def State.copyParts (c : Ctx) (j : CopyJob) (laid : List CopyPart) : List CopyPart → State → Res Unit
  | [], s => .ok () s
  | p :: r, s => (State.copyPart c j laid p s).bind fun _ s => State.copyParts c j laid r s

/-- The memory core that serves an address of the slot's space (R279, R282, R345): of its channel, or of the issuing core
where it is local. -/
def State.servingCore (s : State) (c : Ctx) (va : Dword) (k : AccessKind) : Option Nat :=
  if isLocal va then some ((dieOfCore c.core).toNat * 32 + c.core.toNat % 32)
  else match s.translate c va k with
    | .ok pa _ => some (memCoreOf pa)
    | _ => none

/-- The memory core of a piece. -/
def State.pieceCore (s : State) (c : Ctx) (j : CopyJob) (g : Option Int) : Option Nat :=
  match g with
  | none => some ((dieOfCore c.core).toNat * 32 + c.core.toNat % 32)
  | some g => s.servingCore c (BitVec.ofInt 64 (g * 2048)) (if isLocal (shapeBase j.src) then .write else .read)

/-- Two elements of a shape may share a bit. -/
def shapeMeetsItself (v : BitVec 768) : Bool :=
  let ks := (List.range (shapeRank v)).filter fun k => 1 < shapeExt v k
  let p (k : Nat) : Nat := (shapePitch v k).natAbs
  ks.any fun k =>
    p k < elemBits (shapeFmt v) + ((ks.filter fun i => i ≠ k && p i ≤ p k).map fun i => p i * (shapeExt v i - 1)).sum

/-- The pieces of a copy that are still to be performed. -/
def State.piecesLeft (s : State) (m : Cmd) : List (Option Int) :=
  (s.copyJob m).pieces.filter fun g => !m.served.contains g

/-- A copy of the ROM program that still has pieces. -/
def Cmd.cutting (m : Cmd) : Bool := m.eng = 0 && !m.stopped && !m.finished && copyProg (m.reg 11) = 1

/-- A piece can be performed (R282): pieces run concurrently, but a memory core runs those of one issuing core in the order
it receives them. -/
def State.pieceReady (s : State) (m : Cmd) (g : Option Int) : Bool :=
  let j := s.copyJob m
  let left := s.piecesLeft m
  let before := left.takeWhile fun h => h ≠ g
  let at_ := s.pieceCore (s.ctxCmd m) j g
  left.contains g
    && !(before.any fun h => s.pieceCore (s.ctxCmd m) j h = at_)
    && !s.cmds.any fun k => k.cutting && k.id < m.id && coreOf k.slot = coreOf m.slot
      && (s.piecesLeft k).any fun h => s.pieceCore (s.ctxCmd k) (s.copyJob k) h = at_

/-- A memory core works: its die is in use (R449). -/
def State.touchMemCore (s : State) (k : Option Nat) : State :=
  match k with
  | some k => s.touchDie (BitVec.ofNat 3 (k / 32))
  | none => s

/-- What the elements of a copy's destination take of its source, in index order: `k` are left, `pos` is the next (R275). -/
def State.readSources (c : Ctx) (j : CopyJob) : Nat → Nat → State → Res (List Nat)
  | 0, _, s => .ok [] s
  | k + 1, pos, s =>
    let one : Res Nat := match copyFrom j.dims j.halo j.edge (unflatten (shapeExts j.dst) pos) with
      | .elem si => s.engRead c (shapeBit j.src si) (elemBits (shapeFmt j.src))
      | _ => .ok 0 s
    one.bind fun x s => (State.readSources c j k (pos + 1) s).bind fun l s => .ok (x :: l) s

/-- A piece has been performed: its bytes are counted, a remainder with the last (R285). -/
def State.pieceDone (s : State) (m : Cmd) (g : Option Int) (b : Nat) (snap : List Nat) (last : Bool) : State :=
  let bits := m.bits + b
  let k := if last then (bits + 7) / 8 - m.aux else b / 8
  let s := (s.modCmd m.id fun q =>
    { q with pos := m.pos + 1, bits, aux := m.aux + k, snap, served := m.served ++ [g] }).deliverFor m k
  if last then s.finishCmd m.id else s

/-- MQ_COPY_PIECE: piece t of a copy by the ROM program, counted at the barrier of mq12 (R282, R285). A copy without pieces
is done at once. -/
def execMqCopyPiece (s : State) : Out :=
  s.withCmd 0 fun m =>
    let c := s.ctxCmd m
    let j := s.copyJob m
    let parts := j.parts
    if copyProg (m.reg 11) ≠ 1 then .fault .noObject
    else if parts = [] then .next (s.finishCmd m.id)
    else match j.pieces[s.arg.t]? with
      | none => .fault .noObject
      | some g =>
        if !s.pieceReady m g then .fault .noObject
        else if !s.deliverTurn m then .next s
        else
          let first : Res (List Nat) :=
            if m.pos = 0 && s.rangesMeet c (shapeBounds j.src) (shapeBounds j.dst) then
              State.readSources c j (shapeCount j.dst) 0 s
            else .ok m.snap s
          let mine := parts.filter fun p => p.gran = g
          let laid := if shapeMeetsItself j.dst then parts.filter fun p => m.served.contains p.gran else []
          (first.bind fun snap s =>
            (State.copyParts c { j with snap } laid mine s).bind fun _ s => .ok snap s).step s m fun snap q =>
              .next ((q.touchMemCore (s.pieceCore c j g)).pieceDone m g (mine.map CopyPart.n).sum snap
                ((s.piecesLeft m).length = 1))

def execMqCopy (a b : RegNo) (s : State) : Out :=
  if s.namesLink [a, b] then s.illegal
  else s.retryOr 0 (fun _ => id) <| s.cwaGate 0 <|
    let r (i : Nat) : Dword := s.slot.ereg 0 i
    let prog := copyProg (r 11)
    let hs := (fld (r 8) 0 32).setWidth 64 :: (if prog = 1 then [(fld (r 8) 32 32).setWidth 64] else [])
    s.handleGate hs <|
      let m := { s.capturedCmd 0 with a := s.getX a, b := s.getX b }
      let c := s.ctxOf s.slotNo true
      let src := s.cmdShape m (fld (r 8) 0 32)
      let dst := s.cmdShape m (fld (r 8) 32 32)
      if !copyCommonOk (r 11) (r 12) || (prog = 1 && !romCopyOk src dst (r 9) (r 10) (r 11)) then s.illegal
      else
        let wr :=
          if prog = 1 then [s.shapeLock c dst true]
          else if r 10 = 0 then [] else [s.lockOf c (r 9).toNat ((r 9).toNat + (r 10).toNat) true]
        s.issue { m with locks := s.shapeLock c src false :: wr } id

/-! ### User programs of the memory cores (R345 to R347) -/

/-- The parts of a source range: cut at multiples of 2048. -/
def partCount (b : Nat × Nat) : Nat := (b.2 + 2047) / 2048 - b.1 / 2048
def partOf (b : Nat × Nat) (j : Nat) : Nat × Nat :=
  let g := b.1 / 2048 + j
  let lo := max b.1 (g * 2048)
  (lo, min b.2 ((g + 1) * 2048) - lo)

/-- MC_INVOCATION: the next invocation of a user-program command starts (R345). -/
def execMcInvocation (s : State) : Out :=
  s.withCmd 0 fun m =>
    let b := shapeBounds (s.cmdShape m (fld (m.reg 8) 0 32))
    if copyProg (m.reg 11) < 3 || partCount b ≤ m.pos then .fault .noObject
    else
      let p := partOf b m.pos
      let regs : List Dword :=
        [0, BitVec.ofNat 64 p.1, BitVec.ofNat 64 p.2, m.a, m.b, m.reg 8, m.reg 9, m.reg 10, m.reg 11, m.reg 12,
         (coreOf m.slot).setWidth 64, BitVec.ofNat 64 m.pos]
      let at_ := s.servingCore (s.ctxCmd m) (BitVec.ofNat 64 p.1) .read
      let run : McRun :=
        { cmd := m, j := m.pos, core := at_, lo := b.1, hi := b.2, m := Vector.ofFn fun i => regs.getD i.val 0 }
      .next { ((s.touchMemCore at_).modCmd m.id fun q => { q with pos := m.pos + 1 }) with mcs := s.mcs ++ [run] }

def McRun.get (r : McRun) (x : BitVec 4) : Dword := r.m[x.toNat]'x.isLt
/-- m0 reads 0: a write of it is discarded. -/
def McRun.set (r : McRun) (x : BitVec 4) (v : Dword) : McRun :=
  if x = 0 then r else { r with m := r.m.set x.toNat v x.isLt }

/-- The invocation whose turn it is. -/
def State.withMc (s : State) (f : McRun → Out) : Out :=
  match s.mcs with
  | [] => .fault .noObject
  | r :: _ => f r

def State.setMc (s : State) (r : McRun) : State := { s with mcs := r :: s.mcs.drop 1 }

/-- The invocation ends with a fault of its command. -/
def State.mcTrap (s : State) (r : McRun) (t : TrapInfo) : Out :=
  .next ({ s with mcs := s.mcs.drop 1 }.post .engineFault { c := r.cmd.id, trap := { t with eng := r.cmd.engCode } })

/-- MCFAULT (R347, R376). -/
def State.mcFault (s : State) (r : McRun) (reason : Nat) : Out :=
  s.mcTrap r
    { cause := causeMcfault, txval := BitVec.ofNat 64 (reason * 2 ^ 56 + r.j % 2 ^ 32 * 2 ^ 16 + (r.pc % 1024).toNat) }

/-- m(a) := f (m(b)) (m(c)). -/
def State.mcAlu (s : State) (a b c : BitVec 4) (f : Dword → Dword → Dword) : Out :=
  s.withMc fun r => .next (s.setMc (r.set a (f (r.get b) (r.get c))))

def execMcAdd (a b c : BitVec 4) (s : State) : Out := s.mcAlu a b c (· + ·)
def execMcSub (a b c : BitVec 4) (s : State) : Out := s.mcAlu a b c (· - ·)
def execMcAnd (a b c : BitVec 4) (s : State) : Out := s.mcAlu a b c (· &&& ·)
def execMcOr (a b c : BitVec 4) (s : State) : Out := s.mcAlu a b c (· ||| ·)
def execMcXor (a b c : BitVec 4) (s : State) : Out := s.mcAlu a b c (· ^^^ ·)
def execMcShl (a b c : BitVec 4) (s : State) : Out := s.mcAlu a b c fun x y => x <<< (y.toNat % 64)
def execMcShr (a b c : BitVec 4) (s : State) : Out := s.mcAlu a b c fun x y => x >>> (y.toNat % 64)
def execMcMul (a b c : BitVec 4) (s : State) : Out := s.mcAlu a b c (· * ·)
def execMcAddi (a b : BitVec 4) (i : BitVec 14) (s : State) : Out := s.mcAlu a b 0 fun x _ => x + sext i
def execMcShli (a b : BitVec 4) (i : BitVec 6) (s : State) : Out := s.mcAlu a b 0 fun x _ => x <<< i.toNat

def mcCond (k : BitVec 4) (x y : Dword) : Bool :=
  match k.toNat with
  | 0 => x = y
  | 1 => x ≠ y
  | 2 => x.ult y
  | 3 => !x.ult y
  | 4 => x.slt y
  | _ => !x.slt y

def execMcB (k b c : BitVec 4) (i : BitVec 14) (s : State) : Out :=
  s.withMc fun r => .next (if mcCond k (r.get b) (r.get c) then s.setMc { r with npc := r.pc + i.toInt } else s)

/-- The count and the buffer range of mc.rd and mc.wr (reason 3), then the byte range (reason 4). -/
def mcRange (off n a lo hi : Nat) : Option Nat :=
  if n = 0 || 2048 < n || 2048 < off + n then some 3 else if a < lo || hi < a + n then some 4 else none

/-- An access that a translation or permission check stops, and one that waits: the instruction is tried again. -/
def State.mcOut {α : Type} (s0 : State) (r : McRun) (q : Res α) (f : α → State → Out) : Out :=
  match q with
  | .ok a s => f a s
  | .trap t _ => s0.mcTrap r t
  | .wait s | .miss s => .next ((s0.setMc { r with npc := r.pc, count := r.count - 1 }).keepWaits s)

/-- mc.rd reads memory as it stands: invocations are unordered (R346), and the model takes R275's image of an overlapping source
for the ROM copy and the other engines only (DEDUCED, log 119). -/
def execMcRd (a b c : BitVec 4) (s : State) : Out :=
  s.withMc fun r =>
    let off := (r.get a).toNat
    let n := (r.get c).toNat
    match mcRange off n (r.get b).toNat r.lo r.hi with
    | some k => s.mcFault r k
    | none => s.mcOut r (s.engBytes (s.ctxCmd r.cmd) (r.get b) n) fun v s =>
        .next (s.setMc { r with buf := Memory.write r.buf off n v })

/-- Bytes written one after the other. -/
def State.engPutBytes (c : Ctx) : List Byte → Dword → State → Res Unit
  | [], _, s => .ok () s
  | x :: l, va, s => (s.engPut c va 0 8 x.toNat).bind fun _ s => State.engPutBytes c l (va + 1) s

def execMcWr (a b c : BitVec 4) (s : State) : Out :=
  s.withMc fun r =>
    let off := (r.get a).toNat
    let n := (r.get c).toNat
    let lo := (r.cmd.reg 9).toNat
    match mcRange off n (r.get b).toNat lo (lo + (r.cmd.reg 10).toNat) with
    | some k => s.mcFault r k
    | none =>
      if !s.deliverTurn r.cmd then s.mcOut r (.wait s : Res Unit) fun _ s => .next s
      else s.mcOut r (State.engPutBytes (s.ctxCmd r.cmd) (Memory.readList r.buf off n) (r.get b) s) fun _ s =>
        .next (s.deliverFor r.cmd n)

/-- The buffer offset of mc.ldb and mc.stb, where it is in order. -/
def mcOffset (x : Dword) (i : BitVec 14) : Option Nat :=
  let o := (x + i.setWidth 64).toNat
  if o % 8 = 0 && o ≤ 2040 then some o else none

def execMcLdb (a b : BitVec 4) (i : BitVec 14) (s : State) : Out :=
  s.withMc fun r =>
    match mcOffset (r.get b) i with
    | none => s.mcFault r 3
    | some o => .next (s.setMc (r.set a (BitVec.ofNat 64 (Memory.read r.buf o 8))))

def execMcStb (a b : BitVec 4) (i : BitVec 14) (s : State) : Out :=
  s.withMc fun r =>
    match mcOffset (r.get b) i with
    | none => s.mcFault r 3
    | some o => .next (s.setMc { r with buf := Memory.write r.buf o 8 (r.get a).toNat })

def execMcElem (a b c : BitVec 4) (s : State) : Out :=
  s.withMc fun r =>
    match s.shapeOf (clusOfCore (coreOf r.cmd.slot)) (r.get b) with
    | none => s.mcFault r 5
    | some e =>
      let n := (r.get c).toNat
      if shapeCount e.image ≤ n then s.mcFault r 5
      else .next (s.setMc (r.set a (BitVec.ofInt 64 (shapeBit e.image (unflatten (shapeExts e.image) n)))))

/-- MC_END: the invocation ends; the command completes with its last one. -/
def execMcEnd (s : State) : Out :=
  s.withMc fun r =>
    let s := { s with mcs := s.mcs.drop 1 }
    match s.cmd r.cmd.id with
    | none => .next s
    | some m =>
      .next (if partCount (r.lo, r.hi) ≤ m.pos && !s.mcs.any fun k => k.cmd.id = m.id then s.finishCmd m.id else s)

/-! ### The stream-load unit (R286, R351, R352) -/

/-- KIND, OUT and PARAM of a transformation word. -/
def xfKind (w : Dword) : Nat := (fld w 0 3).toNat
def xfOut (w : Dword) : Nat := (fld w 3 5).toNat
def xfParam (w : Dword) : Nat := (fld w 8 56).toNat

/-- The transformation words in use. -/
def shapeXfs (v : BitVec 768) : List Dword := (List.range (shapeNxf v)).map (shapeXf v)

/-- The tag after the transformations. -/
def finalTag (v : BitVec 768) : Nat := ((shapeXfs v).getLast?.map xfOut).getD (shapeFmt v)

/-- Every lookup has an input of at most 8 bits, from an input tag. -/
def lookupsOk : Nat → List Dword → Bool
  | _, [] => true
  | t, w :: r => (xfKind w ≠ 2 || tagMem t ≤ 8) && lookupsOk (xfOut w) r

/-- Code n of an MX shape, its blocks in index order: an MX register holds element codes, without the blocks' scales, and a
transformation works on those codes (R34, R43, log 89). -/
def State.mxCode (s : State) (c : Ctx) (v : BitVec 768) (n : Nat) : Res (Nat × Nat) :=
  let t := shapeFmt v
  if shapeCount v ≤ n / 32 then .ok (0, t) s
  else (s.engRead c (shapeBit v (unflatten (shapeExts v) (n / 32)) + 8 + (n % 32 * tagMem t : Nat)) (tagMem t)).bind
    fun x s => .ok (x, t) s

/-- Element n after the transformations, the last one first: its code and its tag. `start` is the input element of
element 0, `morg` the mask bit of output element 0. Of an MX shape a transformation's input elements are the codes of its
blocks (DEDUCED, log 89). -/
def State.slElem (c : Ctx) (v : BitVec 768) (start morg : Nat) : List Dword → Nat → State → Res (Nat × Nat)
  | [], n, s =>
    if tagIsMx (shapeFmt v) then s.mxCode c v (start * 32 + n)
    else if shapeCount v ≤ start + n then .ok (0, shapeFmt v) s
    else (s.engRead c (shapeBit v (unflatten (shapeExts v) (start + n))) (tagMem (shapeFmt v))).bind fun x s =>
      .ok (x, shapeFmt v) s
  | w :: r, n, s =>
    let t := xfOut w
    match xfKind w with
    | 3 =>
      -- the input elements that the mask's bits below this one have taken
      (s.engRead c ((xfParam w * 8 + morg : Nat) : Int) (n + 1)).bind fun mk s =>
        if mk.testBit n then
          (State.slElem c v start morg r (popCount (BitVec.ofNat n mk)) s).bind fun x s => .ok (x.1 % 2 ^ tagMem t, t) s
        else .ok (0, t) s
    | 2 =>
      (State.slElem c v start morg r n s).bind fun x s =>
        (s.engRead c ((xfParam w * 8 + x.1 * tagMem t : Nat) : Int) (tagMem t)).bind fun y s => .ok (y, t) s
    | _ =>
      (State.slElem c v start morg r n s).bind fun x s =>
        .ok (codeOf (tagMem t) (if tagIsI t then signedOf (tagMem x.2) x.1 else (x.1 : Int)), t) s

/-- The elements from n on, `k` of them. -/
def State.slElems (c : Ctx) (v : BitVec 768) (start morg : Nat) : Nat → Nat → State → Res (List Nat)
  | 0, _, s => .ok [] s
  | k + 1, n, s =>
    (State.slElem c v start morg (shapeXfs v).reverse n s).bind fun x s =>
      (State.slElems c v start morg k (n + 1) s).bind fun l s => .ok (x.1 :: l) s

/-- The entries of a stream load: the shape, and the tables and masks of its transformations. -/
def State.slLocks (s : State) (c : Ctx) (v : BitVec 768) (morg vl : Nat) : List Lock :=
  let rec go : Nat → List Dword → List Lock
    | _, [] => []
    | t, w :: r =>
      (match xfKind w with
        | 2 => [s.lockOf c (xfParam w) (xfParam w + (2 ^ tagMem t * tagMem (xfOut w) + 7) / 8) false]
        | 3 => [s.lockOf c (xfParam w + morg / 8) (xfParam w + (morg + vl + 7) / 8) false]
        | _ => []) ++ go (xfOut w) r
  s.shapeLock c v false :: go (shapeFmt v) (shapeXfs v)

/-- The group that a stream load writes. -/
def Cmd.vd (m : Cmd) : RegNo := fld m.word 6 5

/-- Elements of one 512-bit row. -/
def rowElems (ew : Nat) : Nat := 512 / ew

def execSlLoad (i vd : RegNo) (s : State) : Out :=
  let ready := s.writable vd s.vlN
  let start (m : Cmd) (s : State) : State :=
    (s.setTag vd s.gN (finalTag (s.cmdShape m (fld (m.reg 4) 0 32)))).setProg vd s.gN s.ew (if m.vl = 0 then none else some 0)
  if s.namesLink [i] then s.illegal
  else if s.slot.vill then s.vilTrap
  else s.retryOr 2 start (ready := ready) <| s.cwaGate 2 <|
    let h : Dword := (fld (s.slot.ereg 2 4) 0 32).setWidth 64
    s.handleGate [h] <|
      let m := { s.capturedCmd 2 with a := s.getX i }
      let c := s.ctxOf s.slotNo true
      let v := s.cmdShape m (fld (s.slot.ereg 2 4) 0 32)
      let morg := (fld (s.slot.ereg 2 5) 0 32).toNat
      if fld (s.slot.ereg 2 4) 32 32 ≠ 0 || fld (s.slot.ereg 2 5) 32 32 ≠ 0 || !groupOk vd s.gN
          || tagReg (finalTag v) ≠ s.ew || !lookupsOk (shapeFmt v) (shapeXfs v) then s.illegal
      else
        s.issue { m with locks := if m.vl = 0 then [] else s.slLocks c v morg m.vl, finished := m.vl = 0 } (start m) ready

/-- SL_LOAD_ROW: the next output row lands in the group; the last one completes it (R286, R352). The spec does not say
what becomes of an sl.load that stopped and is issued again after L shrank: it keeps the VL that it captured, and its elements from
the new VLMAX on are discarded (DESIGN CHOICE, log 109). -/
def execSlLoadRow (s : State) : Out :=
  s.withCmd 2 fun m =>
    let s := s.focus m.slot
    let c := s.ctxCmd m
    let ew := 2 ^ m.ew.toNat
    let g := 2 ^ m.grp.toNat
    let v := s.cmdShape m (fld (m.reg 4) 0 32)
    let n := m.pos * rowElems ew
    let k := min (rowElems ew) (m.vl - n)
    (State.slElems c v m.a.toNat (fld (m.reg 5) 0 32).toNat k n s).step s m fun l s =>
      let last := m.vl ≤ n + k
      let room := s.vlmaxOf g ew
      let s := (l.zipIdx.foldl (fun s p => if n + p.2 < room then s.setElem m.vd ew (n + p.2) p.1 else s) s).setProg m.vd g ew
        (if last then none else some (n + k))
      let s := s.modCmd m.id fun q => { q with pos := m.pos + 1 }
      .next (if last then s.finishCmd m.id else s)

end Sys2Proof.Machine
end

