-- ==== Sys2Proof/Machine/Plane.lean ====
section
/-! DEFINITION. The plane engine and vmm (R287 to R299, R353, R362). -/

namespace Sys2Proof.Machine

/-! ### Operands (R287, R288) -/

def pofWin (w : Dword) : Nat := (fld w 0 4).toNat
def pofTile (w : Dword) : Nat := (fld w 16 16).toNat
def pofMx (w : Dword) : Bool := w.getLsbD 33
def pofPlanes (w : Dword) : Nat := (fld w 34 6).toNat
def pofSoff (w : Dword) : Nat := (fld w 46 18).toNat

/-- The MX tag of an element format. -/
def mxOf (t : Nat) : Option Nat :=
  match t with
  | 4 => some 22
  | 5 => some 23
  | 6 => some 24
  | 7 => some 25
  | 8 => some 26
  | 16 => some 27
  | _ => none

/-- The operand's tag under its window descriptor. -/
def operandTag (w f : Dword) : Nat := if pofMx w then (mxOf (wfmtStore f)).getD 31 else wfmtStore f

/-- The planes that are read: 0 declares all of them. -/
def operandPlanes (w f : Dword) : Nat := if pofPlanes w = 0 then tagP (operandTag w f) else pofPlanes w

/-- The checks of R296 on an operand register and the window descriptor it captures. -/
def operandOk (w f : Dword) : Bool :=
  pofWin w ≠ 0 && wfmtKind f = 2 && pofPlanes w ≤ tagP (operandTag w f)
    && !(pofMx w && (mxOf (wfmtStore f)).isNone)
    && fld w 40 6 = 0 && fld w 32 1 = 0 && fld w 4 12 = 0

/-- The value of a code with d planes read (R288), before a block scale. -/
def planeValue (t d c : Nat) : XV :=
  let e := mxElem t
  let v : XV :=
    if tagIsI e then XV.ofInt (signedOf d c)
    else if tagIsN e then XV.ofInt (c % 2 ^ d : Nat)
    else if tagIsB e then decodeTag e c
    else
      match decodeTag e c with
      | .fin b _ _ =>
        let (sg, x) := magForm e c
        let cut := 2 ^ (tagP e - d)
        XV.scaled b (sg / cut * cut) 1 x
      | x => x
  if t = 27 then v.scale (-6) else v

/-- Elements of row r of a stored tile of an operand, from the tile's bytes and its scales'. -/
def planeRow (w f : Dword) (tile scales r : Nat) : List XV :=
  let tag := operandTag w f
  let d := operandPlanes w f
  let ws := tagMem (wfmtStore f)
  (List.range 128).map fun k =>
    let v := planeValue tag d (tile / 2 ^ ((r * 128 + k) * ws) % 2 ^ ws)
    if pofMx w then
      match e8m0Exp (scales / 2 ^ (8 * (4 * r + k / 32)) % 256) with
      | some x => v.scale x
      | none => .nan false
    else v

/-- The scratchpad bytes of a run of stored tiles, and of their scales. -/
def tileBytes (_w f : Dword) (t n : Nat) : Nat × Nat :=
  let z := 256 * tagMem (wfmtStore f)
  (wfmtOrigin f + z * t, z * n)
def scaleBytes (w : Dword) (t n : Nat) : Nat × Nat := (pofSoff w + 64 * t, 64 * n)

/-- The bytes of stored tile `t` of an operand, and those of its scales. -/
def State.operandBytes (s : State) (c : CoreNo) (w f : Dword) (t : Nat) : List Nat :=
  let get (p : Nat × Nat) : Nat := s.mem.read (keySpad c p.1) p.2
  [get (tileBytes w f t 1), if pofMx w then get (scaleBytes w t 1) else 0]

/-- The lowest scratchpad offset past the end that a step reads. -/
def pastSpad (l : List (Nat × Nat)) : Option Nat :=
  ((l.filter fun p => spadSize < p.1 + p.2).map fun p => max p.1 spadSize).min?

/-- The byte ranges that a run of steps reads. -/
def stepBytes (wa fa wb fb : Dword) (st n : Nat) : List (Nat × Nat) :=
  [tileBytes wa fa (pofTile wa + st) n, tileBytes wb fb (pofTile wb + st) n]
    ++ (if pofMx wa then [scaleBytes wa (pofTile wa + st) n] else [])
    ++ (if pofMx wb then [scaleBytes wb (pofTile wb + st) n] else [])

/-- `n` bytes of a core's scratchpad from an offset, as far as it has them (R297). -/
def spadSegs (c : CoreNo) (off n : Nat) : List Seg :=
  [{ lo := keySpad c (min off spadSize), hi := keySpad c (min (off + n) spadSize), loc := true }]

/-! ### Tiles -/

def Core.tile (c : Core) (t : BitVec 2) : PTile := c.tiles[t.toNat]'t.isLt
def Core.setTile (c : Core) (t : BitVec 2) (v : PTile) : Core := { c with tiles := c.tiles.set t.toNat v t.isLt }

/-- The tile that a command's word names. -/
def Cmd.tile (m : Cmd) : BitVec 2 := fld m.word 16 2

def AccElem.toAccum (e : AccElem) : Accum := { acc := e.acc.toInt, nan := e.nan, pinf := e.pinf, ninf := e.ninf }
def AccElem.ofAccum (a : Accum) : AccElem := { acc := BitVec.ofInt 640 a.acc, nan := a.nan, pinf := a.pinf, ninf := a.ninf }

/-- Sticky flags set in an engine's XFLAGS register of a slot. -/
def State.orXflags (s : State) (n : SlotNo) (e i : Nat) (f : BitVec 5) : State :=
  s.modSlot n fun t => t.setEreg e i (t.ereg e i ||| f.setWidth 64)

def isF64Pair (a b : Nat) : Bool := a = 0 && b = 0
def pairOk (a b : Nat) : Bool := (a = 0) = (b = 0)

/-! ### Issue (R292, R296) -/

/-- Tags that C and D may carry. -/
def cdTagOk (t : Nat) : Bool := [0, 1, 2, 3, 4, 5, 9, 10, 13, 14, 15, 16, 19].contains t

def cfmtPitch (w : Dword) : Nat := (fld w 32 16).toNat
def cfmtRm (w : Dword) : Nat := (fld w 13 3).toNat
def cfmtSc (w : Dword) : Nat := (fld w 10 3).toNat
def cfmtDtag (w : Dword) : Nat := (fld w 5 5).toNat
def cfmtCtag (w : Dword) : Nat := (fld w 0 5).toNat

/-- The tag, the pitch and the address of C or D. -/
def cdOk (w addr : Dword) (t : Nat) : Bool :=
  let b := tagMem t / 8
  fld w 48 16 = 0 && fld w 16 16 = 0 && cdTagOk t && cfmtPitch w ≠ 0 && cfmtPitch w % b = 0 && addr.toNat % b = 0

/-- The range of the rows of C or D. -/
def cdLock (s : State) (c : Ctx) (w addr : Dword) (t : Nat) (wr : Bool) : Lock :=
  s.lockOf c addr.toNat (addr.toNat + 15 * cfmtPitch w + 2 * tagMem t) wr

/-- The command as captured, with its operands' window descriptors. -/
def State.planeCmd (s : State) : Cmd :=
  let f (i : Nat) : Dword := s.slot.wfmt.toList.getD (pofWin (s.slot.ereg 3 i)) 0
  { s.capturedCmd 3 with wa := f 16, wb := f 17 }

def Cmd.tagA (m : Cmd) : Nat := operandTag (m.reg 16) m.wa
def Cmd.tagB (m : Cmd) : Nat := operandTag (m.reg 17) m.wb
def Cmd.operandsOk (m : Cmd) : Bool :=
  operandOk (m.reg 16) m.wa && operandOk (m.reg 17) m.wb && pairOk m.tagA m.tagB

def Cmd.korg (m : Cmd) : Nat := (fld (m.reg 18) 32 32).toNat

/-- The rounding mode of a store: RM, or FRM as captured. -/
def Cmd.storeMode (m : Cmd) : Nat := if cfmtRm (m.reg 19) = 7 then m.frm.toNat else cfmtRm (m.reg 19)

/-- A plane-engine command from its completion-word checks on. -/
def State.planeIssue (s : State) (ok : Cmd → Bool) (locks : Cmd → List Lock) (f : Cmd → State → State) : Out :=
  s.retryOr 3 f <| s.cwaGate 3 <|
    let m := s.planeCmd
    if !ok m then s.illegal else s.issue { m with locks := locks m } (f m)

def execPeClear (_t : BitVec 2) (_q : BitVec 4) (s : State) : Out :=
  s.planeIssue (fun _ => true) (fun _ => []) fun _ => id

def execPeLoad (_t : BitVec 2) (_q : BitVec 4) (s : State) : Out :=
  s.planeIssue (fun m => m.operandsOk && cdOk (m.reg 19) (m.reg 20) (cfmtCtag (m.reg 19)))
    (fun m => [cdLock s (s.ctxOf s.slotNo true) (m.reg 19) (m.reg 20) (cfmtCtag (m.reg 19)) false]) fun _ => id

def execPeMma (_t : BitVec 2) (_q : BitVec 4) (s : State) : Out :=
  let clear (_ : Cmd) (s : State) : State := s.upd fun t => t.setEreg 3 22 0
  s.retryOr 3 clear <| s.cwaGate 3 <|
    let st := (fld (s.slot.ereg 3 22) 0 32).toNat
    let m := { s.planeCmd with pos := st }
    if !m.operandsOk || m.kext = 0 || m.ns ≤ st || (m.tagA = 0 && m.korg % 128 ≠ 0) then s.illegal
    else
      let ls := (stepBytes (m.reg 16) m.wa (m.reg 17) m.wb st (m.ns - st)).map fun p =>
        ({ segs := spadSegs s.coreNo p.1 p.2, wr := false } : Lock)
      s.issue { m with locks := ls } (clear m)

def execPeStore (_t : BitVec 2) (_q : BitVec 4) (s : State) : Out :=
  s.planeIssue
    (fun m => cdOk (m.reg 19) (m.reg 20) (cfmtDtag (m.reg 19)) && m.storeMode < 6
      && fld (m.sc.toList.getD (cfmtSc (m.reg 19)) 0) 16 48 = 0)
    (fun m => [cdLock s (s.ctxOf s.slotNo true) (m.reg 19) (m.reg 20) (cfmtDtag (m.reg 19)) true])
    (fun m s => if m.storeMode = 5 then s.upd fun t => { t with srseed := t.srseed + 1 } else s)

/-! ### Steps (R292 to R295, R297) -/

def pepairTrap (t : BitVec 2) : TrapInfo := { cause := causePepair, tval := t.setWidth 64 }

/-- The sum of one step's products added to an element: its new value and the flags of the f64 fold. -/
def AccElem.addStep (e : AccElem) (a b : Nat) (ps : List (XV × XV)) : AccElem × BitVec 5 :=
  if isF64Pair a b then
    let r := f64Fold e.run.toNat (ps.map fun p => (XV.mul p.1 p.2).val)
    ({ e with run := BitVec.ofNat 64 r.1 }, r.2)
  else (AccElem.ofAccum (ps.foldl (fun z p => z.addProd 640 (prodUnit a b) p.1 p.2) e.toAccum), 0)

/-- What step `st` of a pe.mma reads: a tile of A and one of B, each with its scales. -/
def State.mmaOperands (s : State) (m : Cmd) (st : Nat) : List Nat :=
  s.operandBytes (coreOf m.slot) (m.reg 16) m.wa (pofTile (m.reg 16) + st)
    ++ s.operandBytes (coreOf m.slot) (m.reg 17) m.wb (pofTile (m.reg 17) + st)

/-- A tile after step `st` of a command, from what the step reads. -/
def Cmd.mmaTile (m : Cmd) (st : Nat) (ops : List Nat) (q : PTile) : PTile × BitVec 5 :=
  let n := min 128 (m.kext - 128 * st)
  let rows (w f : Dword) (i : Nat) : List (List XV) :=
    (List.range 16).map fun r => (planeRow w f (ops.getD i 0) (ops.getD (i + 1) 0) r).take n
  let ra := rows (m.reg 16) m.wa 0
  let rb := rows (m.reg 17) m.wb 2
  let out : Vector (AccElem × BitVec 5) 256 := Vector.ofFn fun i =>
    (q.elems[i]).addStep m.tagA m.tagB ((ra.getD (i.val / 16) []).zip (rb.getD (i.val % 16) []))
  ({ pair := some (BitVec.ofNat 5 m.tagA, BitVec.ofNat 5 m.tagB), elems := out.map Prod.fst },
    out.toList.foldl (fun f p => f ||| p.2) 0)

/-- A fault of a plane-engine step: NEXT.STEP is the faulting step (R297); what was read for it and for later steps is
dropped. -/
def State.planeFault (s : State) (m : Cmd) (t : TrapInfo) : Out :=
  .next (((s.modCmd m.id fun k => { k with snap := [] }).modSlot m.slot fun k =>
    k.setEreg 3 22 (BitVec.ofNat 64 m.pos)).post .engineFault { c := m.id, trap := { t with eng := m.engCode } })

/-- The result of a step of pe.load or pe.store. -/
def Res.planeStep {α : Type} (r : Res α) (s0 : State) (m : Cmd) (f : α → State → Out) : Out :=
  match r with
  | .trap t _ => s0.planeFault m t
  | r => r.step s0 m f

/-- The lowest scratchpad byte past the end that step `st` of a pe.mma reads. -/
def Cmd.pastEnd (m : Cmd) (st : Nat) : Option Nat := pastSpad (stepBytes (m.reg 16) m.wa (m.reg 17) m.wb st 1)

/-- The reads of a step's operands, as accesses to the scratchpad. -/
def State.mmaTouch (s : State) (m : Cmd) (st : Nat) : State :=
  (stepBytes (m.reg 16) m.wa (m.reg 17) m.wb st 1).foldl
    (fun s p => s.touchSpan (coreOf m.slot) (keySpad (coreOf m.slot) p.1) p.2 false) s

/-- The operands of the next step of a pe.mma that has none are read, before the step itself is performed: its accesses keep
their place in the slot's order, and steps of other streams may act on the tile in between (R275, R277). With those of the
last step its entries are released (R276). -/
def State.mmaRead (s : State) (m : Cmd) : Out :=
  let st := m.pos + m.ahead
  if m.ns ≤ st || (m.pastEnd st).isSome then .fault .noObject
  else
    s.inTurn m <| .next <| (s.mmaTouch m st).modCmd m.id fun k =>
      { k with
        snap := m.snap ++ s.mmaOperands m st
        locks := if st + 1 = m.ns then m.entriesAfter fun _ => true else m.locks }

/-- The next step of a pe.mma on its tile (R294), from operands that have been read. -/
def State.mmaStep (s : State) (m : Cmd) (ops : List Nat) : Out :=
  let c := coreOf m.slot
  let q := (s.getCore c).tile m.tile
  if q.pair.isSome && q.pair ≠ some (BitVec.ofNat 5 m.tagA, BitVec.ofNat 5 m.tagB) then s.planeFault m (pepairTrap m.tile)
  else
    let r := m.mmaTile m.pos ops q
    let s := ((s.modCore c fun k => k.setTile m.tile r.1).orXflags m.slot 3 21 r.2).modCmd m.id fun k =>
      { k with pos := m.pos + 1, snap := m.snap.drop 4 }
    .next (if m.pos + 1 = m.ns then s.finishCmd m.id else s)

/-- PE_MMA_STEP: the next step of a pe.mma (R294): PEPAIR comes before ADDRESS. With `t` = 1 the operands of a step alone are
read. -/
def execPeMmaStep (s : State) : Out :=
  s.onCmd 3 fun m =>
    if m.peOp ≠ 2 || !s.streamReady m then .fault .noObject
    else if s.arg.t = 1 then s.mmaRead m
    else if m.snap ≠ [] then s.mmaStep m m.snap
    else
      s.inTurn m
        (let q := (s.getCore (coreOf m.slot)).tile m.tile
         let pair := some (BitVec.ofNat 5 m.tagA, BitVec.ofNat 5 m.tagB)
         match if q.pair.isSome && q.pair ≠ pair then none else m.pastEnd m.pos with
         | some o => s.planeFault m (addressTrap (BitVec.ofNat 64 (0xFE000000000000 + o)))
         | none => (s.mmaTouch m m.pos).mmaStep m (s.mmaOperands m m.pos))

/-- C entered into an element (R293), and its flags: NX where the value entered differs, and those of the conversion to f64
(R36, R50). -/
def enterElem (a b : Nat) (x : XV) : AccElem × BitVec 5 :=
  if isF64Pair a b then
    let q := roundTo 0 .rne false x 0
    ({ run := BitVec.ofNat 64 q.code }, q.flags)
  else
    let u := prodUnit a b
    match x with
    | .nan _ => ({ nan := true }, 0)
    | .inf n => ({ pinf := !n, ninf := n }, 0)
    | .fin n _ _ =>
      let k := unitsRne x u
      if 2 ^ 600 ≤ k.natAbs then ({ pinf := !n, ninf := n }, fNX)
      else ({ acc := BitVec.ofInt 640 k }, flagIf (!(XV.scaled (k < 0) k.natAbs 1 u).eq x) fNX)

/-- The bit address of element i = 16m + n of C or D. -/
def Cmd.cdBit (m : Cmd) (t i : Nat) : Int :=
  (((m.reg 20).toNat + i / 16 * cfmtPitch (m.reg 19)) * 8 + i % 16 * tagMem t : Nat)

/-- The codes of C, from element i on, `k` of them. -/
def State.readC (c : Ctx) (m : Cmd) (t : Nat) : Nat → Nat → State → Res (List Nat)
  | 0, _, s => .ok [] s
  | k + 1, i, s => (s.engRead c (m.cdBit t i) (tagMem t)).bind fun x s =>
      (State.readC c m t k (i + 1) s).bind fun l s => .ok (x :: l) s

/-- What a store writes for element i (R295), with its flags. -/
def Cmd.storeElem (m : Cmd) (q : PTile) (i : Nat) : Nat × BitVec 5 :=
  let t := cfmtDtag (m.reg 19)
  let sx : Int := (fld (m.sc.toList.getD (cfmtSc (m.reg 19)) 0) 0 16).toInt
  let e := q.elems.toList.getD i {}
  let mode := rmodeOf m.storeMode
  let put (v : XRes) : Nat × BitVec 5 :=
    let y := v.val.scale sx
    let r := roundTo t mode false (if y.isZero then XV.zero else y) (srWord m.srseed m.slot i)
    (r.code, v.flags ||| r.flags)
  match q.pair with
  | none => put ⟨XV.zero, 0⟩
  | some (a, b) =>
    if isF64Pair a.toNat b.toNat then
      if t = 0 && sx = 0 then (e.run.toNat, 0) else put ⟨decodeTag 0 e.run.toNat, 0⟩
    else put (Accum.value (prodUnit a.toNat b.toNat) e.toAccum)

/-- The codes of D written, from element i on. -/
def State.writeD (c : Ctx) (m : Cmd) (t : Nat) : List Nat → Nat → State → Res Unit
  | [], _, s => .ok () s
  | x :: l, i, s => (s.engWrite c (m.cdBit t i) (tagMem t) x).bind fun _ s => State.writeD c m t l (i + 1) s

/-- C as codes entered into a tile, with the flags raised (R293). -/
def Cmd.loadTile (m : Cmd) (l : List Nat) : PTile × BitVec 5 :=
  let es : List (AccElem × BitVec 5) := l.map fun x => enterElem m.tagA m.tagB (decodeTag (cfmtCtag (m.reg 19)) x)
  ({ pair := some (BitVec.ofNat 5 m.tagA, BitVec.ofNat 5 m.tagB)
     elems := Vector.ofFn fun i => (es.getD i.val ({}, 0)).1 }, es.foldl (fun f p => f ||| p.2) 0)

/-- What a store writes of a tile: the flags raised, then the 256 codes of D (R295). -/
def Cmd.storeTile (m : Cmd) (q : PTile) : List Nat :=
  let es : List (Nat × BitVec 5) := (List.range 256).map (m.storeElem q)
  (es.foldl (fun (f : BitVec 5) p => f ||| p.2) 0).toNat :: es.map Prod.fst

/-- The codes of C of a pe.load, read before or now. -/
def State.codesC (s : State) (m : Cmd) : Res (List Nat) :=
  if m.snap ≠ [] then .ok m.snap s else State.readC (s.ctxCmd m) m (cfmtCtag (m.reg 19)) 256 0 s

/-- PE_TILE_STEP: the step of a pe.clear, pe.load or pe.store (R292, R293, R295). With `t` = 1 a pe.load only reads C, and a
pe.store only reads its tile: the accesses of the command keep their place in the slot's order, while the steps of other
streams are not ordered with the tile's half (R275, R277). -/
def execPeTileStep (s : State) : Out :=
  s.onCmd 3 fun m =>
    let n := coreOf m.slot
    let q := (s.getCore n).tile m.tile
    let keep (l : List Nat) (s : State) : State := s.modCmd m.id fun k => { k with snap := l }
    let codesRead (s : State) : State := s.releaseEntries m.id fun _ => true
    if m.peOp = 2 || !s.streamReady m || (s.arg.t = 1 && (m.peOp = 0 || m.snap ≠ [])) then .fault .noObject
    else if m.peOp = 0 then .next ((s.modCore n fun k => k.setTile m.tile {}).finishCmd m.id)
    else if m.peOp = 1 then
      if s.arg.t = 1 then s.inTurn m ((s.codesC m).planeStep s m fun l s => .next (codesRead (keep l s)))
      else
        let go : Out := (s.codesC m).planeStep s m fun l s =>
          let r := m.loadTile l
          .next (((s.modCore n fun k => k.setTile m.tile r.1).orXflags m.slot 3 21 r.2).finishCmd m.id)
        if m.snap ≠ [] then go else s.inTurn m go
    else if s.arg.t = 1 then .next (keep (m.storeTile q) s)
    else
      s.inTurn m
        (let es := if m.snap ≠ [] then m.snap else m.storeTile q
         (State.writeD (s.ctxCmd m) m (cfmtDtag (m.reg 19)) (es.drop 1) 0 s).planeStep s m fun _ s =>
           .next ((s.orXflags m.slot 3 21 (BitVec.ofNat 5 (es.headD 0))).finishCmd m.id))

/-! ### The small-matrix path (R299, R362) -/

/-- An element of a vmm source: its value by R43 without a scale. -/
def vmmValue (t c : Nat) : XV := planeValue t (tagP t) c

/-- The exact value that vmm rounds for one output: the starting element, the scales and the products. -/
def vmmExact (x : XV) (sa sb : Nat) (ps : List (XV × XV)) : XRes :=
  let prods := ps.map fun p => (XV.mul p.1 p.2).val
  let all := x :: prods
  let nan := all.any XV.isNan || sa = 255 || sb = 255
  let pinf := all.any fun v => v.isInf && !v.neg?
  let ninf := all.any fun v => v.isInf && v.neg?
  if nan || (pinf && ninf) then ⟨.nan false, fNV⟩
  else if pinf then ⟨.inf false, 0⟩
  else if ninf then ⟨.inf true, 0⟩
  else
    let sum := prods.foldl (fun a v => (XV.add false a v).val) XV.zero
    let y := (XV.add false x (sum.scale ((sa : Int) + sb - 254))).val
    ⟨if y.isZero then XV.zero else y, 0⟩

def execVmm (d a b : RegNo) (k : BitVec 3) (s : State) : Out :=
  let ta := s.vtag a
  let tb := s.vtag b
  let okTag (t : Nat) : Bool := [22, 23, 24, 25, 27].contains t
  s.vgate [] (s.ew = 8 && s.gN = 1 && s.lanes = 8 && d ≠ a && d ≠ b && a ≠ b) (okTag ta && okTag tb && s.vtag d = 1)
    (s.rmode 7).isSome
    (s.readable a 256 && s.readable b 256 && s.readable d 64 && s.writable d 64)
    (match s.rmode 7 with
      | none => s.illegal
      | some mode =>
        let sa (r : Nat) : Nat := (fld (s.slot.ereg 3 (4 + k.toNat)) (8 * r) 8).toNat
        let sb (c : Nat) : Nat := (fld (s.slot.ereg 3 (5 + k.toNat)) (8 * c) 8).toNat
        let ga := s.group a 1
        let gb := s.group b 1
        let gd := s.group d 1
        let out := (List.range 64).map fun i =>
          let y := vmmExact (decodeTag 1 (elemAt gd 32 i)) (sa (i / 8)) (sb (i % 8))
            ((List.range 32).map fun j =>
              (vmmValue ta (elemAt ga 8 (32 * (i / 8) + j)), vmmValue tb (elemAt gb 8 (32 * (i % 8) + j))))
          let q := roundTo 1 mode false y.val (s.rword i)
          (q.code, y.flags ||| q.flags)
        let v := out.zipIdx.foldl (fun v p => v + p.1.1 * 2 ^ (32 * p.2)) 0
        .next (((s.putGroup d 1 v 1).orFflags (out.foldl (fun f p => f ||| p.2) 0)).bumpSeed mode))

end Sys2Proof.Machine
end

