-- ==== Sys2Proof/Machine/Chain.lean ====
section
/-! DEFINITION. The chain engine (R301 to R313, R354). -/

namespace Sys2Proof.Machine

/-! ### Registers (R302, R304) -/

def Cmd.ceStep (m : Cmd) : Nat := (fld (m.reg 5) 0 16).toNat
def Cmd.cePlen (m : Cmd) : Nat := (fld (m.reg 5) 16 16).toNat
def Cmd.ceSub (m : Cmd) : Nat := (fld (m.reg 5) 32 16).toNat
def Cmd.ceXlen (m : Cmd) : Nat := (fld (m.reg 9) 0 32).toNat
def Cmd.ceCur (m : Cmd) : Nat := (fld (m.reg 9) 32 32).toNat
def Cmd.ceOff (m : Cmd) : Nat := (fld (m.reg 10) 0 18).toNat
def Cmd.ceCap (m : Cmd) : Nat := (fld (m.reg 10) 36 20).toNat
def Cmd.ceSfmt (m : Cmd) : Nat := (fld (m.reg 14) 0 5).toNat
def Cmd.ceBfmt (m : Cmd) : Nat := (fld (m.reg 14) 5 5).toNat
def Cmd.ceRm (m : Cmd) : Nat := (fld (m.reg 14) 13 3).toNat
def Cmd.ceMode (m : Cmd) : Nat := if m.ceRm = 7 then m.frm.toNat else m.ceRm
/-- The bytes of a boundary element. -/
def Cmd.ceBytes (m : Cmd) : Nat := tagMem m.ceBfmt / 8

/-- The boundary's extents and its state (R303). -/
structure Boundary where
  l : Nat
  q : Nat
  p : Nat
  r : Nat
  o : Bool
  h : Bool
  live : Bool
  cur : Nat
deriving DecidableEq, Repr

def Cmd.boundary (m : Cmd) : Boundary :=
  { l := (fld (m.reg 11) 16 16).toNat, r := (fld (m.reg 11) 0 16).toNat,
    q := (fld (m.reg 12) 20 20).toNat, p := (fld (m.reg 12) 0 20).toNat,
    o := (m.reg 13).getLsbD 2, h := (m.reg 13).getLsbD 1, live := (m.reg 13).getLsbD 0, cur := m.ceCur }

/-- The elements of a boundary. -/
def Boundary.size (b : Boundary) : Nat := b.l * b.q * b.p * b.r

/-- A chain register written by the engine: in the slot, and in the command that runs on (R309). -/
def State.ceWrite (s : State) (m : Cmd) (i : Nat) (v : Nat) : State :=
  (s.modSlot m.slot fun t => t.setEreg 4 i (BitVec.ofNat 64 v)).modCmd m.id fun k =>
    { k with er := k.er.setIfInBounds i (BitVec.ofNat 64 v) }

/-- PCTL with a step and a tile. -/
def State.cePctl (s : State) (m : Cmd) (step sub : Nat) : State :=
  s.ceWrite m 5 (sub % 2 ^ 16 * 2 ^ 32 + m.cePlen * 2 ^ 16 + step)

/-- The entries of a command once CUR stands at `cur`: that of the input is released with its last element, unless another
range of the command has bytes in it (R276). -/
def Cmd.entriesAt (m : Cmd) (cur : Nat) : List Lock :=
  let rest := m.locks.eraseIdx 2
  if m.locks.length = 4 && cur = m.ceXlen && !(rest.any fun k => (m.locks[2]?).any k.meets) then rest else m.locks

/-- The words that a step has read of the pattern and of the stitch table, kept while it waits (R307). -/
def State.ceKeep (s : State) (m : Cmd) (l : List Dword) : State := s.modCmd m.id fun k => { k with data := l }

/-- The commit of a step (R309). -/
def State.ceCommit (s : State) (m : Cmd) (b : Boundary) (step : Nat) : State :=
  let s := (((s.cePctl m step 0).ceKeep m []).modCmd m.id fun k => { k with locks := m.entriesAt b.cur })
  let s := s.ceWrite m 9 (b.cur * 2 ^ 32 + m.ceXlen)
  let s := s.ceWrite m 11 (b.l * 2 ^ 16 + b.r)
  let s := s.ceWrite m 12 (b.q * 2 ^ 20 + b.p)
  s.ceWrite m 13 (b2n b.o * 4 + b2n b.h * 2 + b2n b.live)

/-! ### Issue (R307, R310) -/

def ceBfmtOk (t : Nat) : Bool := [1, 2, 3].contains t
def ceSfmtOk (t : Nat) : Bool := (1 ≤ t && t ≤ 12) || t = 16 || t = 17

/-- The operand checks of R307. -/
def Cmd.chainOk (m : Cmd) : Bool :=
  let b := m.ceBytes
  ceBfmtOk m.ceBfmt && ceSfmtOk m.ceSfmt && m.ceMode < 6 && m.cePlen ≠ 0 && m.ceStep < m.cePlen
    && fld (m.reg 4) 0 1 = 0 && m.reg 7 ≠ 0 && m.ceCap ≠ 0 && m.ceOff % b = 0 && m.ceOff + 2 * m.ceCap * b ≤ spadSize
    && fld (m.reg 5) 48 16 = 0 && fld (m.reg 10) 56 8 = 0 && fld (m.reg 10) 18 18 = 0 && fld (m.reg 11) 32 32 = 0
    && fld (m.reg 12) 40 24 = 0 && fld (m.reg 13) 3 61 = 0 && fld (m.reg 14) 16 48 = 0 && fld (m.reg 14) 10 3 = 0

/-- The four entries of R310: with XLEN = 0 the input's is empty, meets nothing and counts in the table (DEDUCED, log 98). -/
def State.chainLocks (s : State) (c : Ctx) (m : Cmd) : List Lock :=
  let a (i : Nat) : Nat := (m.reg i).toNat
  [s.lockOf c (a 4) (a 4 + 2 * m.cePlen) false, s.lockOf c (a 6) (a 6 + a 7) false,
   s.lockOf c (a 8) (a 8 + m.ceXlen * m.ceBytes) false,
   { segs := spadSegs c.core m.ceOff (2 * m.ceCap * m.ceBytes), wr := true }]

def execCeRun (_q : BitVec 4) (s : State) : Out :=
  s.retryOr 4 (fun _ => id) <| s.cwaGate 4 <|
    let m := s.capturedCmd 4
    if !m.chainOk then s.illegal else s.issue { m with locks := s.chainLocks (s.ctxOf s.slotNo true) m } id

/-! ### The pattern step (R305, R311) -/

/-- A stitch as a step sees it: its address, its bonds and its mode. -/
structure Stitch where
  addr : Nat
  lb : Nat
  n : Nat
  rb : Nat
deriving DecidableEq, Repr

/-- The element number of (a, i, b) of a stitch (R301). -/
def Stitch.elem (g : Stitch) (a i b : Nat) : Nat := (a * g.n + i) * g.rb + b

/-- The register numbers that a table entry names: left bond, mode, right bond. -/
def entryRegs (w : Dword) : Nat × Nat × Nat :=
  (32 + (fld w 0 4).toNat, 48 + (fld w 8 4).toNat, 32 + (fld w 4 4).toNat)

/-- A dimension register that is in order. -/
def dimOk (v : Dword) : Bool := v ≠ 0 && fld v 16 48 = 0

/-- The stitch of a table entry, whose bytes have been read. -/
def Cmd.stitch (m : Cmd) (a w : Dword) : Stitch :=
  let (l, n, r) := entryRegs w
  let d (i : Nat) : Nat := (fld (m.reg i) 0 16).toNat
  { addr := a.toNat, lb := d l, n := d n, rb := d r }

/-- Reason 3 for an entry that has been read: a reserved bit, or data outside the weights. -/
def Cmd.outside (m : Cmd) (w : Dword) (g : Stitch) : Bool :=
  let lo := (m.reg 6).toNat
  let len := (g.lb * g.n * g.rb * tagMem m.ceSfmt + 7) / 8
  fld w 12 52 ≠ 0 || (len ≠ 0 && (g.addr < lo || lo + (m.reg 7).toNat < g.addr + len))

/-- Reason 4 for an entry: a register in use, or the bond that CONTRACT needs. -/
def Cmd.badDims (m : Cmd) (op : Nat) (b : Boundary) (w : Dword) (g : Stitch) : Bool :=
  let (l, n, r) := entryRegs w
  !dimOk (m.reg l) || !dimOk (m.reg n) || !dimOk (m.reg r) || (op = 2 && b.r ≠ if b.o then g.rb else g.lb)

/-- The boundary after a step, H apart. -/
def Boundary.after (b : Boundary) (op : Nat) (g : Stitch) : Boundary :=
  match op with
  | 1 => { b with l := if b.o then g.rb else g.lb, r := if b.o then g.lb else g.rb, q := 1, p := g.n, live := true }
  | 2 => { b with p := b.p * g.n, r := if b.o then g.lb else g.rb }
  | 3 => { b with p := 1, cur := b.cur + b.p }
  | 4 => { b with q := b.q * b.p, p := 1 }
  | 5 => { b with l := b.r, r := b.l, o := !b.o }
  | _ => b

/-- The extents exceed their fields (reason 8). -/
def Boundary.tooBig (b : Boundary) : Bool := 65535 < b.l || 65535 < b.r || 2 ^ 20 ≤ b.q || 2 ^ 20 ≤ b.p

/-- The first reason of 4 (a scale register), 5, 6 and 8 that holds, and the overflow as 0. -/
def Cmd.chainReason (m : Cmd) (op sel : Nat) (b b' : Boundary) : Option Nat :=
  if op = 6 && fld (m.sc.toList.getD (sel % 8) 0) 16 48 ≠ 0 then some 4
  else if 2 ≤ op && !b.live then some 5
  else if op = 3 && m.ceXlen < b.cur + b.p then some 6
  else if b'.tooBig then some 8
  else if op ≠ 0 && op ≠ 4 && m.ceCap < b'.size then some 0
  else none

/-! ### Output tiles (R306 to R308) -/

/-- The buffer's bytes as they stood before the command began, kept at its first step where the pattern, the weights or the input
overlap it (R275). -/
def State.ceBefore (s : State) (c : Ctx) (m : Cmd) : List Nat :=
  if m.snap = [] && m.locks.any fun l => !l.wr && m.locks.any fun k => k.wr && k.meets l then
    [s.mem.read (keySpad c.core m.ceOff) (2 * m.ceCap * m.ceBytes)]
  else m.snap

/-- A read of the pattern, the weights or the input: of the buffer's bytes it sees those from before the command (R275). -/
def State.readBefore {α : Type} (c : Ctx) (m : Cmd) (f : State → Res α) (s : State) : Res α :=
  match m.snap with
  | [] => f s
  | v :: _ =>
    let k := keySpad c.core m.ceOff
    let n := 2 * m.ceCap * m.ceBytes
    let back (q : State) : State := { q with mem := q.mem.write k n (s.mem.read k n) }
    match f { s with mem := s.mem.write k n v } with
    | .ok a q => .ok a (back q)
    | .trap t q => .trap t (back q)
    | .wait q => .wait (back q)
    | .miss q => .miss (back q)

/-- The byte address of element e of half h. -/
def Cmd.halfBit (m : Cmd) (h : Bool) (e : Nat) : Int :=
  ((0xFE000000000000 + m.ceOff + (b2n h * m.ceCap + e) * m.ceBytes) * 8 : Nat)

def State.readB (c : Ctx) (m : Cmd) (h : Bool) (e : Nat) (s : State) : Res Nat :=
  s.engRead c (m.halfBit h e) (tagMem m.ceBfmt)
def State.readG (c : Ctx) (m : Cmd) (g : Stitch) (e : Nat) (s : State) : Res Nat :=
  s.readBefore c m fun s => s.engRead c ((g.addr * 8 + e * tagMem m.ceSfmt : Nat) : Int) (tagMem m.ceSfmt)
def State.readIn (c : Ctx) (m : Cmd) (e : Nat) (s : State) : Res Nat :=
  s.readBefore c m fun s => s.engRead c (((m.reg 8).toNat * 8 + e * tagMem m.ceBfmt : Nat) : Int) (tagMem m.ceBfmt)

/-- A sum of products: `k` terms are left, the next is number j; `x` and `y` read the operands. -/
def sumTerms (ta tb : Nat) (x y : Nat → State → Res Nat) : Nat → Nat → Accum → State → Res Accum
  | 0, _, z, s => .ok z s
  | k + 1, j, z, s =>
    (x j s).bind fun u s => (y j s).bind fun v s =>
      sumTerms ta tb x y k (j + 1) (z.addProd 640 (prodUnit ta tb) (decodeTag ta u) (decodeTag tb v)) s

/-- The exact value of a result element, or the code that REVERSE moves. -/
inductive ChainVal where
  | value (x : XRes)
  | code (c : Nat)

/-- Element e of the result of a step (R305, R306). -/
def State.chainElem (c : Ctx) (m : Cmd) (op sel : Nat) (b b' : Boundary) (g : Stitch) (e : Nat) (s : State) :
    Res ChainVal :=
  let bf := m.ceBfmt
  let sf := m.ceSfmt
  match op with
  | 1 =>
    let ρ := e % b'.r
    let i := e / b'.r % g.n
    let l := e / b'.r / g.n
    (s.readG c m g (if b.o then g.elem ρ i l else g.elem l i ρ)).bind fun v s => .ok (.value ⟨decodeTag sf v, 0⟩) s
  | 2 =>
    let ρ' := e % b'.r
    let i := e / b'.r % g.n
    let row := e / b'.r / g.n
    (sumTerms bf sf (fun ρ s => s.readB c m b.h (row * b.r + ρ))
      (fun ρ s => s.readG c m g (if b.o then g.elem ρ' i ρ else g.elem ρ i ρ')) b.r 0 {} s).bind fun z s =>
        .ok (.value (Accum.value (prodUnit bf sf) z)) s
  | 3 =>
    let ρ := e % b.r
    let lq := e / b.r
    (sumTerms bf bf (fun p s => s.readB c m b.h ((lq * b.p + p) * b.r + ρ)) (fun p s => s.readIn c m (b.cur + p))
      b.p 0 {} s).bind fun z s => .ok (.value (Accum.value (prodUnit bf bf) z)) s
  | 5 =>
    let l := e % b.l
    let p := e / b.l % b.p
    let q := e / b.l / b.p % b.q
    let ρ := e / b.l / b.p / b.q
    (s.readB c m b.h (((l * b.q + q) * b.p + p) * b.r + ρ)).bind fun v s => .ok (.code v) s
  | _ =>
    let sx : Int := (fld (m.sc.toList.getD (sel % 8) 0) 0 16).toInt
    (s.readB c m b.h e).bind fun v s => .ok (.value ⟨(decodeTag bf v).scale sx, 0⟩) s

/-- The rows and columns of the result matrix (R308), for a step of blocks. -/
def tileDims (op : Nat) (b b' : Boundary) (g : Stitch) : Nat × Nat :=
  if op = 2 then (b.l * b.q * b.p, g.n * b'.r) else (b.l * b.q * b.r, 1)

/-- The number of output tiles of a step, and the elements of one. -/
def tileCount (op : Nat) (b b' : Boundary) (g : Stitch) : Nat :=
  if op = 0 || op = 4 then 0
  else if op = 2 || op = 3 then
    let d := tileDims op b b' g
    (d.1 + 15) / 16 * ((d.2 + 15) / 16)
  else (b'.size + 255) / 256

def tileElems (op : Nat) (b b' : Boundary) (g : Stitch) (t : Nat) : List Nat :=
  if op = 2 || op = 3 then
    let d := tileDims op b b' g
    let nb := (d.2 + 15) / 16
    let r0 := t / nb * 16
    let c0 := t % nb * 16
    (List.range (min 16 (d.1 - r0))).flatMap fun i => (List.range (min 16 (d.2 - c0))).map fun j => (r0 + i) * d.2 + c0 + j
  else (List.range (min 256 (b'.size - 256 * t))).map (· + 256 * t)

/-- The elements of a tile formed and written, with the flags raised. Where several of a tile's reads fault, R312 and R275 do not
say which is reported: the model takes the elements in order, and of one term the boundary's read before the stitch's or the
input's (DESIGN CHOICE, log 108). -/
def State.chainTile (c : Ctx) (m : Cmd) (op sel : Nat) (b b' : Boundary) (g : Stitch) :
    List Nat → BitVec 5 → State → Res (BitVec 5)
  | [], f, s => .ok f s
  | e :: es, f, s =>
    (s.chainElem c m op sel b b' g e).bind fun v s =>
      let q : Nat × BitVec 5 := match v with
        | .code k => (k, 0)
        | .value y =>
          let r := roundTo m.ceBfmt (rmodeOf m.ceMode) false y.val
            (srWord (m.reg 17) m.slot (e + 2 ^ 20 * (m.ceStep % 4096)))
          (r.code, y.flags ||| r.flags)
      (s.engWrite c (m.halfBit (!b.h) e) (tagMem m.ceBfmt) q.1).bind fun _ s =>
        State.chainTile c m op sel b b' g es (f ||| q.2) s

/-- The tiles from `t` on, `k` of them: the state after the last one that was written, the tile that is next, and the trap
or wait that stopped it. -/
def State.chainTiles (c : Ctx) (m : Cmd) (op sel : Nat) (b b' : Boundary) (g : Stitch) :
    Nat → Nat → State → State × Nat × Option (Option TrapInfo)
  | 0, t, s => (s, t, none)
  | k + 1, t, s =>
    match State.chainTile c m op sel b b' g (tileElems op b b' g t) 0 s with
    | .ok f s => State.chainTiles c m op sel b b' g k (t + 1) (s.orXflags m.slot 4 15 f)
    | .trap i _ => (s, t, some (some i))
    | .wait q | .miss q => (s.keepWaits q, t, some none)

/-- CHAIN_FORM and, for reason 0, CHAIN_OVERFLOW (R311, R373, R376). CHAIN_FORM writes STEP and
REASON of FINFO and leaves NEED (DEDUCED, log 63). -/
def State.chainFault (s : State) (m : Cmd) (reason need : Nat) : Out :=
  let n := if reason = 0 then need % 2 ^ 20 else (fld ((s.getSlot m.slot).ereg 4 16) 20 20).toNat
  let f := n * 2 ^ 20 + reason * 2 ^ 16 + m.ceStep
  .next ((s.modSlot m.slot fun t => t.setEreg 4 16 (BitVec.ofNat 64 f)).post .engineFault
    { c := m.id
      trap := { cause := if reason = 0 then causeChainOverflow else causeChainForm,
                tval := BitVec.ofNat 64 m.ceStep, txval := BitVec.ofNat 64 f, eng := m.engCode } })

/-- The step from its stitch on. -/
def State.chainRun (s : State) (m : Cmd) (c : Ctx) (op sel : Nat) (g : Stitch) : Out :=
  let b := m.boundary
  let b' := b.after op g
  match m.chainReason op sel b b' with
  | some k => s.chainFault m k b'.size
  | none =>
    let n := tileCount op b b' g
    match State.chainTiles c m op sel b b' g (n - m.ceSub) m.ceSub s with
    | (s, t, some (some i)) =>
      .next ((s.cePctl m m.ceStep t).post .engineFault { c := m.id, trap := { i with eng := m.engCode } })
    | (s, t, some none) => .next (s.cePctl m m.ceStep t)
    | (s, _, none) =>
      if op = 0 then .next ((s.cePctl m 0 0).finishCmd m.id)
      else .next (s.ceCommit m { b' with h := if op = 4 then b.h else !b.h } (m.ceStep + 1))

/-- The step word, read when the step starts or restarts (R307). -/
def State.chainWord (c : Ctx) (m : Cmd) (s : State) : Res Dword :=
  match m.data with
  | w :: _ => .ok w s
  | [] => (s.readBefore c m fun s => s.engRead c (((m.reg 4).toNat + 2 * m.ceStep) * 8 : Nat) 16).bind fun w s =>
      .ok (BitVec.ofNat 64 w) s

/-- The two words of stitch-table entry `k`, read once in a step. -/
def State.chainEntry (c : Ctx) (m : Cmd) (k : Nat) (s : State) : Res (Dword × Dword) :=
  match m.data with
  | _ :: a :: w :: _ => .ok (a, w) s
  | _ => (s.readBefore c m fun s => s.engRead c (((m.reg 6).toNat + 16 * k) * 8 : Nat) 128).bind fun v s =>
      .ok (BitVec.ofNat 64 v, BitVec.ofNat 64 (v / 2 ^ 64)) s

/-- CHAIN_STEP: the next step of the pattern (R305 to R312). -/
def execChainStep (s : State) : Out :=
  s.withCmd 4 fun m =>
    if !s.streamReady m then .fault .noObject
    else
      let c := s.ctxCmd m
      let m := { m with snap := s.ceBefore c m }
      let s := s.modCmd m.id fun k => { k with snap := m.snap }
      if m.cePlen ≤ m.ceStep then s.chainFault m 7 0
      else
        (State.chainWord c m s).step s m fun w s1 =>
          let op := (fld w 12 4).toNat
          let k := (fld w 6 6).toNat
          let sel := (fld w 0 6).toNat
          let s1 := s1.ceKeep m (w :: m.data.drop 1)
          if 7 ≤ op then s1.chainFault m 1 0
          else if (op ≠ 1 && op ≠ 2 && k ≠ 0) || (if op = 6 then 8 ≤ sel else sel ≠ 0) then s1.chainFault m 2 0
          else if op = 1 || op = 2 then
            if (m.reg 7).toNat < 16 * k + 16 then s1.chainFault m 3 0
            else
              (State.chainEntry c m k s1).step s1 m fun e s2 =>
                let g := m.stitch e.1 e.2
                if m.outside e.2 g then s2.chainFault m 3 0
                else if m.badDims op m.boundary e.2 g then s2.chainFault m 4 0
                else (s2.ceKeep m [w, e.1, e.2]).chainRun m c op sel g
          else s1.chainRun m c op sel { addr := 0, lb := 0, n := 0, rb := 0 }

end Sys2Proof.Machine
end

