-- ==== Sys2Proof/Machine/Graphics.lean ====
section
/-! DEFINITION. The graphics engine of a die: binner, visibility resolvers and commit unit (R314 to R329, R355, R356,
R453). -/

namespace Sys2Proof.Machine

/-! ### State blocks (R315) -/

def GState.word (g : GState) (i : Nat) : Dword := g.w.toList.getD i 0
def GState.pitch (g : GState) : Nat := (fld (g.word 1) 32 32).toNat
/-- RGBA16F. -/
def GState.wide (g : GState) : Bool := (g.word 1).getLsbD 30
/-- Bytes of a pixel. -/
def GState.bpp (g : GState) : Nat := if g.wide then 8 else 4
def GState.width (g : GState) : Nat := (fld (g.word 1) 0 15).toNat + 1
def GState.height (g : GState) : Nat := (fld (g.word 1) 15 15).toNat + 1
def GState.depthPitch (g : GState) : Nat := if g.wide then g.pitch / 2 else g.pitch
def GState.vx0 (g : GState) : Nat := (fld (g.word 3) 0 16).toNat
def GState.vy0 (g : GState) : Nat := (fld (g.word 3) 16 16).toNat
def GState.vx1 (g : GState) : Nat := (fld (g.word 3) 32 16).toNat
def GState.vy1 (g : GState) : Nat := (fld (g.word 3) 48 16).toNat
def GState.cull (g : GState) : Nat := (fld (g.word 4) 6 2).toNat
def GState.blend (g : GState) : Nat := (fld (g.word 4) 4 2).toNat
def GState.dwrite (g : GState) : Bool := (g.word 4).getLsbD 3
def GState.dfunc (g : GState) : Nat := (fld (g.word 4) 0 3).toNat

/-- A block that is not refused. -/
def GState.ok (g : GState) : Bool :=
  fld (g.word 0) 0 6 = 0 && g.pitch % 64 = 0 && !(g.word 1).getLsbD 31 && fld (g.word 4) 8 56 = 0 && g.cull ≠ 3
    && g.blend ≠ 3

/-- A change that flushes the open batch (R321): anything but CULL, OPC and TPC. -/
def GState.flushes (g h : GState) : Bool :=
  g.word 0 ≠ h.word 0 || g.word 1 ≠ h.word 1 || g.word 2 ≠ h.word 2 || g.word 3 ≠ h.word 3
    || fld (g.word 4) 0 6 ≠ fld (h.word 4) 0 6 || g.word 5 ≠ h.word 5

/-- The address space of the binner's and resolvers' own accesses (R453). -/
def State.gctx (s : State) (g : GState) : Ctx := { s.ctxOf g.owner true with mode := g.mode, root := g.root }

def State.modGfx (s : State) (d : DieNo) (f : Gfx → Gfx) : State := s.modDie d fun e => { e with gfx := f e.gfx }

/-! ### Coverage and depth (R317, R318) -/

def Prim.word (p : Prim) (i : Nat) : Dword := p.w.toList.getD i 0
def Prim.id (p : Prim) : BitVec 32 := fld (p.word 0) 0 32
def Prim.trans (p : Prim) : Bool := (p.word 0).getLsbD 32
def Prim.shade (p : Prim) : Dword := p.word 6
/-- Coordinate j of X0, Y0, X1, Y1, X2, Y2. -/
def Prim.xy (p : Prim) (j : Nat) : Int := (fld (p.word (1 + j / 2)) (32 * (j % 2)) 32 : BitVec 32).toInt
def Prim.z (p : Prim) (j : Nat) : XV := decodeTag 1 (fld (p.word (4 + j / 2)) (32 * (j % 2)) 32 : BitVec 32).toNat

/-- The edge function of a→b at a point. -/
def edgeFn (a b : Int × Int) (px py : Int) : Int := (b.1 - a.1) * (py - a.2) - (b.2 - a.2) * (px - a.1)

/-- A primitive's vertices after the swap of R317, with its area. -/
structure Tri where
  v0 : Int × Int
  v1 : Int × Int
  v2 : Int × Int
  z0 : XV
  z1 : XV
  z2 : XV
  area : Int

/-- The area before the swap. -/
def Prim.rawArea (p : Prim) : Int := edgeFn (p.xy 0, p.xy 1) (p.xy 2, p.xy 3) (p.xy 4) (p.xy 5)

def Prim.tri (p : Prim) : Tri :=
  let a := p.rawArea
  let v (j : Nat) : Int × Int := (p.xy (2 * j), p.xy (2 * j + 1))
  if a < 0 then { v0 := v 0, v1 := v 2, v2 := v 1, z0 := p.z 0, z1 := p.z 2, z2 := p.z 1, area := -a }
  else { v0 := v 0, v1 := v 1, v2 := v 2, z0 := p.z 0, z1 := p.z 1, z2 := p.z 2, area := a }

/-- One edge's test. -/
def edgeIn (a b : Int × Int) (px py : Int) : Bool :=
  let e := edgeFn a b px py
  0 < e || (e = 0 && (b.2 < a.2 || (b.2 = a.2 && a.1 < b.1)))

/-- The depth at the centre of a pixel (R318), an f32 code. -/
def Tri.depthAt (t : Tri) (x y : Nat) : BitVec 32 :=
  let px : Int := 256 * x + 128
  let py : Int := 256 * y + 128
  let term (a b : Int × Int) (z : XV) : XV := (XV.mul (XV.ofInt (edgeFn a b px py)) z).val
  let sum := (XV.add false (XV.add false (term t.v1 t.v2 t.z0) (term t.v2 t.v0 t.z1)).val (term t.v0 t.v1 t.z2)).val
  BitVec.ofNat 32 (roundTo 1 .rne false (XV.div sum (XV.ofInt t.area)).val 0).code

/-- The pixel is covered (R317, R318). -/
def Tri.covers (t : Tri) (g : GState) (x y : Nat) : Bool :=
  let px : Int := 256 * x + 128
  let py : Int := 256 * y + 128
  x < g.width && y < g.height && g.vx0 ≤ x && x < g.vx1 && g.vy0 ≤ y && y < g.vy1
    && edgeIn t.v0 t.v1 px py && edgeIn t.v1 t.v2 px py && edgeIn t.v2 t.v0 px py
    && !(decodeTag 1 (t.depthAt x y).toNat).isNan

/-- The coverage mask of a tile: bit 8y + x (R325). -/
def Tri.mask (t : Tri) (g : GState) (tx ty : Nat) : Dword :=
  (List.range 64).foldl (fun m i =>
    if t.covers g (8 * tx + i % 8) (8 * ty + i / 8) then m ||| (1#64 <<< i) else m) 0

/-- The depth test (R318). -/
def depthTest (f : Nat) (z d : BitVec 32) : Bool :=
  let a := decodeTag 1 z.toNat
  let b := decodeTag 1 d.toNat
  match f with
  | 0 => false
  | 1 => a.lt b
  | 2 => a.eq b
  | 3 => a.le b
  | 4 => b.lt a
  | 5 => !a.eq b
  | 6 => b.le a
  | _ => true

/-- The tiles of the bounding rectangle within the target and the viewport: first and past-the-last tile in x and in y. -/
def Tri.rect (t : Tri) (g : GState) : (Nat × Nat) × (Nat × Nat) :=
  let mn (f : Int × Int → Int) : Int := min (f t.v0) (min (f t.v1) (f t.v2))
  let mx (f : Int × Int → Int) : Int := max (f t.v0) (max (f t.v1) (f t.v2))
  let lo (m : Int) (v : Nat) : Nat := max ((m - 128 + 255) / 256).toNat v
  let hi (m : Int) (v w : Nat) : Nat := min ((m - 128) / 256 + 1).toNat (min v w)
  let x0 := lo (mn Prod.fst) g.vx0
  let x1 := hi (mx Prod.fst) g.vx1 g.width
  let y0 := lo (mn Prod.snd) g.vy0
  let y1 := hi (mx Prod.snd) g.vy1 g.height
  if x0 < x1 && y0 < y1 then ((x0 / 8, (x1 + 7) / 8), (y0 / 8, (y1 + 7) / 8)) else ((0, 0), (0, 0))

def rectTiles (r : (Nat × Nat) × (Nat × Nat)) : List (Nat × Nat) :=
  (List.range (r.2.2 - r.2.1)).flatMap fun j => (List.range (r.1.2 - r.1.1)).map fun i => (r.1.1 + i, r.2.1 + j)

/-- The tiles in which a primitive covers a pixel (R320). -/
def Tri.tiles (t : Tri) (g : GState) : List (Nat × Nat) := (rectTiles (t.rect g)).filter fun q => t.mask g q.1 q.2 ≠ 0

/-- The Morton index of a tile and its cluster on the die (R319). -/
def morton (q : Nat × Nat) : Nat := interleave 32 [q.1, q.2]
def tileCluster (q : Nat × Nat) : Nat := (q.1 % 2 + 2 * (q.2 % 2)) ^^^ ((q.1 / 2 + q.2 / 2) % 4)

/-! ### Batches (R320 to R322) -/

/-- A list of tiles with one more, in ascending Morton index without repeats. -/
def tileInsert (q : Nat × Nat) : List (Nat × Nat) → List (Nat × Nat)
  | [] => [q]
  | r :: l => if q = r then r :: l else if morton q < morton r then q :: r :: l else r :: tileInsert q l

/-- The tiles that a closed batch replays: the listed ones, and those of the wide primitives' rectangles. -/
def Batch.replayTiles (b : Batch) : List (Nat × Nat) :=
  let wide := b.wide.flatMap fun i => (b.prims[i]?).elim [] fun p => rectTiles (p.tri.rect b.st)
  (b.tiles.map Prod.fst ++ wide).foldl (fun l q => tileInsert q l) []

/-- The primitives of a tile in submission order, listed ones merged with wide ones. -/
def Batch.primsOf (b : Batch) (q : Nat × Nat) : List Prim :=
  let listed := (b.tiles.find? fun e => e.1 = q).elim [] Prod.snd
  (b.prims.zipIdx.filter fun p =>
    listed.contains p.2 || (b.wide.contains p.2 && (rectTiles (p.1.tri.rect b.st)).contains q)).map Prod.fst

/-- The open batch can close: it is empty, or no batch replays. -/
def Gfx.canClose (g : Gfx) : Bool := g.fill.prims.isEmpty || g.replay.isNone

/-- The open batch closed (R321): nothing when it is empty. -/
def Gfx.close (g : Gfx) : Gfx :=
  if g.fill.prims.isEmpty then g
  else
    { g with replay := some g.fill, pending := g.fill.replayTiles, batchNo := g.batchNo + 1,
             fill := { no := g.batchNo + 1 } }

/-- A batch whose last tile has replayed leaves the binner (R322). -/
def Gfx.settleReplay (g : Gfx) : Gfx :=
  match g.replay with
  | some b => if g.pending.isEmpty && !g.tiles.any (fun t => t.batch = b.no && !t.toEmit.isEmpty)
      then { g with replay := none } else g
  | none => g

/-- Saturating counts of GSTAT. -/
def sat8 (v : BitVec 8) : BitVec 8 := if v = 255 then v else v + 1
def sat32 (v : BitVec 32) : BitVec 32 := if v = 0xFFFFFFFF then v else v + 1

/-- The commands of a die that its binner has still to perform, in its order (R316, R355): gx.state, gx.prim, gx.flush, and a
gx.end that has not closed the open batch. R316 orders the commands of one slot; those of several slots go whole, in the order of
their issue (DESIGN CHOICE, log 114). -/
def State.binnerQueue (s : State) (d : DieNo) : List Cmd :=
  s.cmds.filter fun m =>
    m.eng = 5 && m.gxForm ≤ 3 && !m.stopped && !m.finished && (m.gxForm ≠ 3 || m.pos = 0) && dieOf m.slot = d

/-! ### Commands of the binner (R315, R316, R355) -/

/-- The eight words of a number. -/
def wordsOf (v : Nat) : Vector Dword 8 := Vector.ofFn fun i => BitVec.ofNat 64 (v / 2 ^ (64 * i.val))

/-- The state block that the words of a gx.state hold, as the slot of the command made it (R453). -/
def State.gxBlock (s : State) (m : Cmd) : GState :=
  { w := Vector.ofFn fun i => m.data.getD i.val 0, owner := m.slot, root := (s.ctxCmd m).root, mode := (s.ctxCmd m).mode }

/-- gx.state: the block is read as one access, in its place in the slot's order and behind the entries that it meets (R276);
the command, which then holds the block, waits for its turn at the binner (R322, R355). -/
def execGxState (s : State) : Out :=
  s.retryOr 5 (fun _ => id) <| s.cwaGate 5 <|
    let a := s.slot.ereg 5 4
    let m := s.capturedCmd 5
    if fld a 0 6 ≠ 0 then s.illegal
    else if s.meetsHeld s.slotNo 5 [s.lockOf (s.ctxCmd m) a.toNat (a.toNat + 64) false] then .next s.holdOn
    else
      (s.load (s.ctxCmd m) a 64 64).out fun v s =>
        let m := { m with data := (wordsOf v).toList }
        if !(s.gxBlock m).ok then s.illegal else s.issue m id

def execGxFlush (s : State) : Out := s.cwaGate 5 <| s.issue (s.capturedCmd 5) id

def execGxEnd (s : State) : Out := s.cwaGate 5 <| s.issue (s.capturedCmd 5) id

/-- The queue and slot registers that gx.prim checks (R314, R316). -/
def gxPrimOk (padr count queues rslot : Dword) : Bool :=
  let slots := (fld rslot 32 16).toNat
  fld padr 0 6 = 0 && fld count 32 32 = 0 && fld queues 32 32 = 0 && fld rslot 48 16 = 0 && fld rslot 26 6 = 0
    && 1 ≤ slots && slots ≤ 4096 && (fld rslot 0 26).toNat % 512 = 0

def execGxPrim (s : State) : Out :=
  s.retryOr 5 (fun _ => id) <| s.cwaGate 5 <|
    let m := s.capturedCmd 5
    let n := (fld (m.reg 6) 0 32).toNat
    if !gxPrimOk (m.reg 5) (m.reg 6) (m.reg 7) (m.reg 8) then s.illegal
    else
      let lock := s.lockOf (s.ctxOf s.slotNo true) (m.reg 5).toNat ((m.reg 5).toNat + 64 * n) false
      s.issue { m with locks := if n = 0 then [] else [lock], finished := n = 0 } id

/-- The limits of R316 on a record. -/
def Prim.ok (p : Prim) : Bool :=
  p.id ≠ 0xFFFFFFFF && fld (p.word 0) 33 31 = 0 && fld (p.word 5) 32 32 = 0 && p.word 7 = 0
    && (List.range 6).all fun j => -(2 : Int) ^ 30 ≤ p.xy j && p.xy j < 2 ^ 30

/-- The record is dropped (R316). -/
def Prim.drops (p : Prim) (g : GState) : Bool :=
  let a := p.rawArea
  !p.ok || a = 0 || (g.cull = 1 && a < 0) || (g.cull = 2 && 0 < a) || (p.tri.tiles g).isEmpty

/-- A batch with one more primitive. -/
def Batch.add (b : Batch) (p : Prim) (ts : List (Nat × Nat)) : Batch :=
  let i := b.prims.length
  let b := { b with prims := b.prims ++ [p] }
  if 1024 < ts.length then { b with wide := b.wide ++ [i] }
  else
    { b with tiles := ts.foldl (fun l q =>
        if l.any fun e => e.1 = q then l.map fun e => if e.1 = q then (e.1, e.2 ++ [i]) else e else l ++ [(q, [i])]) b.tiles }

/-- The batch holds its 4096 primitives, or its wide list is full: it is flushed before any further record or state (R321). -/
def Batch.atLimit (b : Batch) : Bool := 4096 ≤ b.prims.length || 64 ≤ b.wide.length

/-- The tile entries of a record would overflow the tile list (R321). -/
def Batch.overflows (b : Batch) (ts : List (Nat × Nat)) : Bool :=
  ts.length ≤ 1024 && 65536 < (b.tiles.map fun e => e.2.length).sum + ts.length

/-- The binner with its open batch flushed where `late` says so: none where the flush waits for a batch to leave (R322). -/
def Gfx.flushIf (g : Gfx) (late : Bool) : Option Gfx :=
  if !late then some g else if g.canClose then some g.close else none

/-- A state block performed at the binner (R315, R321). -/
def Gfx.newState (g : Gfx) (st : GState) : Option Gfx :=
  (g.flushIf (g.fill.atLimit || (g.cur.getD {}).flushes st)).map fun g => { g with cur := some st }

/-- A record performed at the binner: none where it waits for a batch to leave it (R322). -/
def Gfx.record (g : Gfx) (m : Cmd) (w : Vector Dword 8) : Option Gfx :=
  let st := g.cur.getD {}
  let q := m.reg 7
  let p : Prim := { w, opc := st.word 6, tpc := st.word 7, oq := fld q 0 16, tq := fld q 16 16 }
  let ts := if p.drops st then [] else p.tri.tiles st
  (g.flushIf (g.fill.atLimit || g.fill.overflows ts)).map fun g =>
    if p.drops st then { g with dropped := sat32 g.dropped }
    else
      let open_ : Batch :=
        if g.fill.prims.isEmpty then
          { no := g.batchNo, st, slots := (fld (m.reg 8) 32 16).toNat, off := (fld (m.reg 8) 0 26).toNat }
        else g.fill
      { g with fill := open_.add p ts }

/-- A record read and performed, the last one of its command finishing it. -/
def State.binnerPrim (s : State) (d : DieNo) (m : Cmd) : Out :=
  if s.outOfTurn (s.ctxCmd m) then .next s
  else
    (s.engRead (s.ctxCmd m) (((m.reg 5).toNat + 64 * m.pos) * 8 : Nat) 512).step s m fun v s =>
      match (s.die d).gfx.record m (wordsOf v) with
      | none => .next s
      | some g =>
        let s := (s.modGfx d fun _ => g).modCmd m.id fun k => { k with pos := m.pos + 1 }
        .next (if m.pos + 1 = (fld (m.reg 6) 0 32).toNat then s.finishCmd m.id else s)

/-- The command at the head of the binner's queue waits for a batch to leave the binner (R322). -/
def State.binnerWaits (s : State) (d : DieNo) (m : Cmd) : Bool :=
  let g := (s.die d).gfx
  match m.gxForm with
  | 0 => (g.newState (s.gxBlock m)).isNone
  | 1 => false
  | _ => !g.canClose

/-- BINNER_RECORD: the binner performs the command at the head of its queue, or its next record (R316, R355). -/
def execBinnerRecord (s : State) : Out :=
  match s.cmd s.arg.c with
  | none => .fault .noObject
  | some m =>
    let d := dieOf m.slot
    let g := (s.die d).gfx
    if (s.binnerQueue d).head?.map Cmd.id ≠ some m.id then .fault .noObject
    else
      match m.gxForm with
      | 0 =>
        match g.newState (s.gxBlock m) with
        | none => .next s
        | some g => .next ((s.modGfx d fun _ => g).finishCmd m.id)
      | 1 => s.binnerPrim d m
      | 2 => .next (if g.canClose then (s.modGfx d Gfx.close).finishCmd m.id else s)
      | _ =>
        .next (if g.canClose then
            (s.modGfx d Gfx.close).modCmd m.id fun k => { k with pos := 1, snap := g.close.closedBatches }
          else s)

/-! ### Tiles at the resolvers (R322 to R324, R453) -/

/-- A read of the binner or a resolver: zero bits and AFAULT where a check fails (R453). A line in POISON counts as a failed check
(DEDUCED, log 118). -/
def State.gfxRead (s : State) (d : DieNo) (g : GState) (a n : Nat) : Res Nat :=
  match s.engBytes (s.gctx g) (BitVec.ofNat 64 a) n with
  | .ok v s => .ok v s
  | .trap _ _ => .ok 0 (s.modGfx d fun x => { x with afault := sat8 x.afault })
  | .wait s => .wait s
  | .miss s => .miss s

/-- The rate code of a tile (R329). -/
def State.tileRate (s : State) (d : DieNo) (g : GState) (tx ty : Nat) : Res (BitVec 3) :=
  if g.word 5 = 0 then .ok 0 s
  else (s.gfxRead d g ((g.word 5).toNat + ty * ((g.width + 7) / 8) + tx) 1).bind fun r s => .ok (BitVec.ofNat 3 r) s

/-- The tile of a batch that the event names. -/
def TileRun.is (t : TileRun) (a : EvArgs) : Bool := t.batch.toNat = a.t && t.tx = a.tx && t.ty = a.ty
def State.tileRun (s : State) : Option TileRun := (s.die s.arg.die).gfx.tiles.find? fun t => t.is s.arg

/-- The tile replaced. -/
def State.setTileRun (s : State) (v : TileRun) : State :=
  s.modGfx s.arg.die fun g => { g with tiles := g.tiles.map fun t => if t.is s.arg then v else t }

/-- A closed batch may deliver its next tile: the translucent tasks of those before it have been emitted. -/
def Gfx.canReplay (g : Gfx) : Bool :=
  match g.replay with
  | some b => !g.pending.isEmpty && !g.tiles.any fun t => t.batch = b.no && !t.toEmit.isEmpty
  | none => false

/-- TILE_REPLAY: the next tile of the closed batch, its primitives delivered to its cluster's resolver. -/
def execTileReplay (s : State) : Out :=
  let d := s.arg.die
  let g := (s.die d).gfx
  match g.replay, g.pending with
  | some b, q :: rest =>
    if !g.canReplay then .fault .noObject
    else
      (s.tileRate d b.st q.1 q.2).orWait s fun rate s =>
        let ps := b.primsOf q
        let tr := (ps.filter Prim.trans).map fun p => (p, p.tri.mask b.st q.1 q.2)
        let t : TileRun :=
          { batch := b.no, st := b.st, tx := q.1, ty := q.2, prims := ps, slots := b.slots, off := b.off, rate,
            toEmit := tr.filter fun p => p.2 ≠ 0 }
        .next (s.modGfx d fun g => { g with pending := rest, tiles := g.tiles ++ [t] }.settleReplay)
  | _, _ => .fault .noObject

/-- The module's number of the cluster that a tile belongs to. -/
def tileClus (d : DieNo) (t : TileRun) : Nat := d.toNat * 4 + tileCluster (t.tx, t.ty)

/-- The lowest free tile slot of a tile's cluster. -/
def Gfx.freeTileSlot (g : Gfx) (t : TileRun) : Option Nat :=
  let used := (g.tiles.filter fun u => tileCluster (u.tx, u.ty) = tileCluster (t.tx, t.ty)).filterMap TileRun.slot
  if used.length < t.slots then (List.range t.slots).find? fun k => !used.contains k else none

/-- The resolver may start the tile: the tile of the batch before it has been released, and a slot is free (R323). -/
def Gfx.canStart (g : Gfx) (t : TileRun) : Bool :=
  t.slot.isNone && (g.freeTileSlot t).isSome
    && ((g.tiles.find? fun u => u.tx = t.tx && u.ty = t.ty).map TileRun.batch) = some t.batch

/-- The depths of a tile, row by row, from row `y` on: pixels outside the target read no depth. -/
def State.readDepth (d : DieNo) (t : TileRun) : Nat → Nat → State → Res (List (BitVec 32))
  | 0, _, s => .ok [] s
  | k + 1, y, s =>
    let n := min 8 (t.st.width - 8 * t.tx)
    let row := 8 * t.ty + y
    let a := (t.st.word 2).toNat + row * t.st.depthPitch + 32 * t.tx
    (if row < t.st.height then s.gfxRead d t.st a (4 * n) else .ok 0 s).bind fun r s =>
      (State.readDepth d t k (y + 1) s).bind fun q s =>
        .ok ((List.range 8).map (fun x => BitVec.ofNat 32 (r / 2 ^ (32 * x))) ++ q) s

/-- The opaque primitives resolved in submission order (R323): the primitive numbers and the depths. -/
def TileRun.resolve (t : TileRun) (ids depth : List (BitVec 32)) : List (BitVec 32) × List (BitVec 32) :=
  (t.prims.filter fun p => !p.trans).foldl (fun a p =>
    let tri := p.tri
    (List.range 64).foldl (fun (a : List (BitVec 32) × List (BitVec 32)) i =>
      let x := 8 * t.tx + i % 8
      let y := 8 * t.ty + i / 8
      if tri.covers t.st x y && depthTest t.st.dfunc (tri.depthAt x y) (a.2.getD i 0) then
        (a.1.set i p.id, if t.st.dwrite then a.2.set i (tri.depthAt x y) else a.2)
      else a) a) (ids, depth)

/-- The 512 bytes of a tile slot: the primitive numbers, then the depths. -/
def slotWords (ids depth : List (BitVec 32)) : Nat := (ids ++ depth).foldr (fun w v => w.toNat + 2 ^ 32 * v) 0

/-- Where tile slot k lies. R314 does not limit the slot area: a part of it past cluster memory's end is written all the same, into
the keys that follow (DESIGN CHOICE, log 115). -/
def tileSlotKey (d : DieNo) (t : TileRun) (k : Nat) : Nat := keyCmem (tileClus d t) (t.off + 512 * k)

/-- RESOLVER_TILE_START: the resolver takes a tile slot, reads the tile's depths and resolves its opaque primitives.
Its writes to cluster memory are not held to the free sectors of R216, whose trap no slot would take (DESIGN CHOICE, log 116). -/
def execResolverTileStart (s : State) : Out :=
  let d := s.arg.die
  let g := (s.die d).gfx
  match s.tileRun with
  | none => .fault .noObject
  | some t =>
    match g.freeTileSlot t with
    | none => .fault .noObject
    | some k =>
      if !g.canStart t then .fault .noObject
      else
        (State.readDepth d t 8 0 s).orWait s fun dep s =>
          let r := t.resolve (List.replicate 64 0xFFFFFFFF) dep
          let s := { s with mem := s.mem.write (tileSlotKey d t k) 512 (slotWords r.1 r.2) }
          .next (s.setTileRun { t with slot := some k, ids := r.1, depth := r.2 })

/-- What the slot holds: the resolver's own words, or free values where a program has stored to them (R314). -/
def State.seenSlot (s : State) (d : DieNo) (t : TileRun) : TileRun × State :=
  match t.slot with
  | none => (t, s)
  | some k =>
    if s.mem.read (tileSlotKey d t k) 512 = slotWords t.ids t.depth then (t, s)
    else
      let w (i : Nat) : BitVec 32 := Config.slotWord (s.drawn + i)
      ({ t with ids := (List.range 64).map w, depth := (List.range 64).map fun i => w (64 + i) },
        { s with drawn := s.drawn + 128 })

/-! ### Shading tasks (R324, R325) -/

/-- The task record of a primitive on a tile; `num`: the ticket, or the ordinal of an opaque task. -/
def TileRun.task (t : TileRun) (p : Prim) (num : Nat) (mask : Dword) : ShadeTask :=
  let trans := p.trans
  { trans, prim := p, ticket := if trans then num else 0, mask, queue := if trans then p.tq else p.oq,
    record :=
      { w0 := fld (if trans then p.tpc else p.opc) 0 56 |>.setWidth 64
        key := t.batch ++ (BitVec.ofNat 24 (morton (t.tx, t.ty)) ++ BitVec.ofNat 24 num : BitVec 48)
        arg0 := p.shade
        arg1 := BitVec.ofNat 64 (t.batch.toNat * 2 ^ 48 + t.rate.toNat * 2 ^ 32 + t.ty * 2 ^ 16 + t.tx)
        arg2 := mask
        arg3 := BitVec.ofNat 32 (if trans then num else 0) ++ p.id } }

/-- The task in the order of a full queue: its batch and tile, its number and its kind name it (R325). -/
def ShadeTask.waiter (d : DieNo) (k : ShadeTask) : Waiter := .gfx d k.trans k.record.key

/-- One task's enqueue: the task as it then stands. A number that is unbound or above 4095 discards it, and its commit
counts as performed; a full queue holds it in the queue's order. -/
def State.emitTask (s : State) (d : DieNo) (k : ShadeTask) : ShadeTask × State :=
  match s.queue k.queue.toNat with
  | none =>
    ({ k with emitted := true, performed := true, waiting := false },
      s.modGfx d fun g => { g with lostTask := sat8 g.lostTask })
  | some q =>
    if q.waiters.contains (k.waiter d) then
      if q.canResume (k.waiter d) then
        ({ k with emitted := true, waiting := false },
          (s.modQueue q.num fun q => { q with waiters := q.waiters.drop 1 }).enqueue q.num k.record)
      else (k, s)
    else if q.room then ({ k with emitted := true }, s.enqueue q.num k.record)
    else ({ k with waiting := true }, s.modQueue q.num fun q => { q with waiters := q.waiters ++ [k.waiter d] })

/-- The tasks of a kind in order, as far as the queues have room. -/
def State.emitTasks (d : DieNo) (trans : Bool) : List ShadeTask → State → List ShadeTask × State
  | [], s => ([], s)
  | k :: r, s =>
    if k.emitted || k.trans ≠ trans then
      let (l, s) := State.emitTasks d trans r s
      (k :: l, s)
    else
      let (k, s) := s.emitTask d k
      if k.emitted then
        let (l, s) := State.emitTasks d trans r s
        (k :: l, s)
      else (k :: r, s)

/-- The distinct primitive numbers of a slot in the raster order of their first pixels, with their masks. -/
def slotOwners (ids : List (BitVec 32)) : List (BitVec 32 × Dword) :=
  ids.zipIdx.foldl (fun (l : List (BitVec 32 × Dword)) (p : BitVec 32 × Nat) =>
    if p.1 = 0xFFFFFFFF#32 then l
    else if l.any fun e => e.1 = p.1 then l.map fun e => if e.1 = p.1 then (e.1, e.2 ||| (1#64 <<< p.2)) else e
    else l ++ [(p.1, 1#64 <<< p.2)]) []

/-- The opaque tasks of a tile at finality: the last primitive of a number owns its pixels. -/
def TileRun.opaqueTasks (t : TileRun) : List ShadeTask :=
  let own := (slotOwners t.ids).filterMap fun e =>
    ((t.prims.filter fun p => !p.trans && p.id = e.1).getLast?).map fun p => (p, e.2)
  own.zipIdx.map fun q => t.task q.1.1 (q.2 + 1) q.1.2

/-- VISIBILITY_FINAL: the tile's visibility is final and its opaque tasks are emitted; those that wait for room go out when
it has come. -/
def execVisibilityFinal (s : State) : Out :=
  let d := s.arg.die
  match s.tileRun with
  | none => .fault .noObject
  | some t =>
    if t.slot.isNone then .fault .noObject
    else
      let (t, s) := if t.final then (t, s) else
        let (v, s) := s.seenSlot d t
        ({ t with final := true, tasks := t.tasks ++ v.opaqueTasks }, s)
      let (ks, s) := State.emitTasks d false t.tasks s
      .next (s.setTileRun { t with tasks := ks })

/-- The commit-buffer entries in use in a cluster of the die (R325): translucent tasks whose commits are not performed. -/
def Gfx.entriesUsed (g : Gfx) (c : Nat) : Nat :=
  ((g.tiles.filter fun t => tileCluster (t.tx, t.ty) = c).map fun t =>
    (t.tasks.filter fun k => k.trans && !k.performed).length).sum

/-- A translucent task of the tile waits for room. -/
def TileRun.transWaits (t : TileRun) : Bool := t.tasks.any fun k => k.trans && !k.emitted

/-- TRANSLUCENT_TASK_EMIT: a commit-buffer entry is reserved and the tile's next ticket goes out. R325 emits the
translucent tasks during the replay, so they may run before the finality of which R324 says that shading begins only then: the
model reads R324 of the opaque tasks (DEDUCED, log 117). -/
def execTranslucentTaskEmit (s : State) : Out :=
  let d := s.arg.die
  match s.tileRun with
  | none => .fault .noObject
  | some t =>
    if t.transWaits then
      let (ks, s) := State.emitTasks d true t.tasks s
      let s := s.setTileRun { t with tasks := ks, toEmit := if ks.any fun k => k.trans && !k.emitted then t.toEmit else t.toEmit.drop 1 }
      .next (s.modGfx d Gfx.settleReplay)
    else
      match t.toEmit with
      | [] => .fault .noObject
      | (p, mask) :: rest =>
        if 256 ≤ (s.die d).gfx.entriesUsed (tileCluster (t.tx, t.ty)) then .fault .noObject
        else
          let k := t.task p ((t.tasks.filter ShadeTask.trans).length + 1) mask
          let (k, s) := s.emitTask d k
          let s := s.setTileRun { t with tasks := t.tasks ++ [k], toEmit := if k.emitted then rest else t.toEmit }
          .next (s.modGfx d Gfx.settleReplay)

/-! ### Commits (R326 to R329, R356) -/

/-- Width and height of a coarse pixel (R329). -/
def rateDims (r : BitVec 3) : Nat × Nat :=
  match r.toNat with
  | 1 => (1, 2)
  | 2 => (2, 1)
  | 3 => (2, 2)
  | 4 => (2, 4)
  | 5 => (4, 2)
  | 6 => (4, 4)
  | _ => (1, 1)

def rateCount (r : BitVec 3) : Nat := 64 / ((rateDims r).1 * (rateDims r).2)

/-- A colour taken to the target's format (R356). -/
def convColour (wide : Bool) (ew c : Nat) : Nat :=
  if wide then
    if ew = 16 then c else (roundTo 2 .rne false (XV.div (XV.ofInt c) (XV.ofInt 255)).val 0).code
  else if ew = 8 then c else (roundTo 19 .rne false (XV.mul (XV.ofInt 255) (decodeTag 2 c)).val 0).code

/-- Blending of R, G, B, A (R327). -/
def blendPixel (bl : Nat) (wide : Bool) (s d : List Nat) : List Nat :=
  let g (l : List Nat) (k : Nat) : Nat := l.getD k 0
  let a := g s 3
  if bl = 0 then if wide then s.map fun c => (roundTo 2 .rne false (decodeTag 2 c) 0).code else s
  else if !wide then
    (List.range 4).map fun k =>
      if bl = 2 then min 255 (g s k + g d k)
      else if k = 3 then a + (g d 3 * (255 - a) + 127) / 255
      else (g s k * a + g d k * (255 - a) + 127) / 255
  else
    let v (c : Nat) : XV := decodeTag 2 c
    let inv := (XV.sub false (XV.ofInt 1) (v a)).val
    (List.range 4).map fun k =>
      let x :=
        if bl = 2 then (XV.add false (v (g s k)) (v (g d k))).val
        else
          let left := if k = 3 then v a else (XV.mul (v (g s k)) (v a)).val
          (XV.add false left (XV.mul (v (g d k)) inv).val).val
      (roundTo 2 .rne false x 0).code

/-- The tile and the task that the operands of a commit name (R326). -/
def State.commitTask (s : State) (d : DieNo) (a b : Dword) : Option (TileRun × ShadeTask) :=
  ((s.die d).gfx.tiles.find? fun t =>
    t.batch = fld a 48 16 && t.ty = (fld a 16 16).toNat && t.tx = (fld a 0 16).toNat).bind fun t =>
    (t.tasks.find? fun k => k.emitted && k.ticket = (fld b 32 32).toNat && k.prim.id = fld b 0 32).map fun k => (t, k)

/-- The address of a pixel of the target. -/
def GState.pixel (g : GState) (x y : Nat) : Nat := (g.word 0).toNat + y * g.pitch + x * g.bpp

/-- The range of the pixels of a mask. -/
def TileRun.maskRange (t : TileRun) (m : Dword) : Nat × Nat :=
  let as := ((List.range 64).filter fun i => m.getLsbD i).map fun i => t.st.pixel (8 * t.tx + i % 8) (8 * t.ty + i / 8)
  (as.min?.getD 0, as.max?.getD 0 + t.st.bpp)

/-- The task was committed: its commit has been performed or is on its way. -/
def State.committed (s : State) (k : ShadeTask) : Bool :=
  k.performed || k.commit.any fun c => (s.cmd c).isSome

def State.setTask (s : State) (d : DieNo) (t : TileRun) (k : ShadeTask) (f : ShadeTask → ShadeTask) : State :=
  s.modGfx d fun g => { g with tiles := g.tiles.map fun u =>
    if u.batch = t.batch && u.tx = t.tx && u.ty = t.ty then
      { u with tasks := u.tasks.map fun j => if j.ticket = k.ticket && j.prim.id = k.prim.id then f j else j }
    else u }

/-- The elements of a commit's colour group, and those of them that are readable now (R26, R356). -/
def Cmd.colours (m : Cmd) : Nat := 4 * rateCount (fld m.a 32 3)
def State.coloursReady (s : State) (m : Cmd) : Nat :=
  min m.colours (((s.focus m.slot).progOf (fld m.word 0 5) (2 ^ m.grp.toNat) (2 ^ m.ew.toNat)).getD m.colours)

/-- A commit reads the elements of its group that have become readable; the group's pointer passes each, and is IDLE after
the last (R278). -/
def State.readColours (s : State) (m : Cmd) : State :=
  let n := s.coloursReady m
  let s := s.focus m.slot
  let v : RegNo := fld m.word 0 5
  let w := 2 ^ m.ew.toNat
  (s.setRdp v (2 ^ m.grp.toNat) w (if n = m.colours then none else some n)).modCmd m.id fun k =>
    { k with data := k.data ++ (List.range (n - k.data.length)).map fun i => BitVec.ofNat 64 (s.elem v w (k.data.length + i)) }

def execGxCommit (a b v : RegNo) (s : State) : Out :=
  let x := s.getX a
  let y := s.getX b
  let c := rateCount (fld x 32 3)
  let w := s.ew
  if s.namesLink [a, b] then s.illegal
  else if s.slot.vill then s.vilTrap
  else if (w ≠ 8 && w ≠ 16) || !groupOk v s.gN || s.regBits * s.gN < 4 * c * w then s.illegal
  else if s.vtag v ≠ (if w = 8 then 19 else 2) then s.vtagx
  else s.cwaGate 5 <|
    match s.commitTask s.dieNo x y with
    | none => s.illegal
    | some (t, k) =>
      if s.committed k then s.illegal
      else
        let r := t.maskRange k.mask
        let m := { s.capturedCmd 5 with
          a := x, b := y, locks := [s.lockOf (s.ctxOf s.slotNo true) r.1 r.2 true] }
        s.issue m (fun s => (s.setTask s.dieNo t k fun j => { j with commit := some m.id }).readColours m)
          ((groupRegs v s.gN).all fun r => (s.slot.getV r).rdp.isNone)

/-- The commit's turn (R328). -/
def TileRun.commitDue (t : TileRun) (k : ShadeTask) : Bool :=
  !k.trans || (t.final && t.tasks.all fun j => (j.trans && k.ticket ≤ j.ticket) || j.performed)

/-- One pixel of a commit. -/
def State.commitPixel (c : Ctx) (m : Cmd) (t : TileRun) (k : ShadeTask) (i : Nat) (s : State) : Res Unit :=
  let x := 8 * t.tx + i % 8
  let y := 8 * t.ty + i / 8
  let g := t.st
  let rd := rateDims (fld m.a 32 3)
  let n := i / 8 / rd.2 * (8 / rd.1) + i % 8 / rd.1
  let src := (List.range 4).map fun h => convColour g.wide (2 ^ m.ew.toNat) (m.data.getD (4 * n + h) 0).toNat
  let w := 8 * g.bpp / 4
  let bit : Int := (g.pixel x y * 8 : Nat)
  let put (l : List Nat) (s : State) : Res Unit :=
    s.engWrite c bit (8 * g.bpp) (l.foldr (fun v a => v % 2 ^ w + 2 ^ w * a) 0)
  if k.trans then
    if depthTest g.dfunc (k.prim.tri.depthAt x y) (t.depth.getD i 0) then
      if g.blend = 0 then put (blendPixel 0 g.wide src []) s
      else (s.engRead c bit (8 * g.bpp)).bind fun v s =>
        put (blendPixel g.blend g.wide src ((List.range 4).map fun h => v / 2 ^ (w * h) % 2 ^ w)) s
    else .ok () s
  else put (blendPixel 0 g.wide src []) s

/-- The pixels of a commit in raster order. -/
def State.commitPixels (c : Ctx) (m : Cmd) (t : TileRun) (k : ShadeTask) : List Nat → State → Res Unit
  | [], s => .ok () s
  | i :: l, s => (State.commitPixel c m t k i s).bind fun _ s => State.commitPixels c m t k l s

/-- COMMIT_PERFORM: a commit reads more of its colours, or, once it holds them all and its turn has come, writes its pixels. -/
def execCommitPerform (s : State) : Out :=
  s.withCmd 5 fun m =>
    let d := dieOf m.slot
    match s.commitTask d m.a m.b with
    | none => .fault .noObject
    | some (t, k) =>
      if m.gxForm ≠ 4 then .fault .noObject
      else if m.data.length < m.colours then .next ((s.readColours m).focus s.slotNo)
      else if !t.commitDue k then .fault .noObject
      else
        let (v, s1) := s.seenSlot d t
        (State.commitPixels (s1.ctxCmd m) m v k ((List.range 64).filter fun i => k.mask.getLsbD i) s1).step s m
          fun _ s => .next ((s.setTask d t k fun j => { j with performed := true }).finishCmd m.id)

/-- Every commit of the tile's batch has been performed (R324). -/
def TileRun.drained (t : TileRun) : Bool := t.final && t.toEmit.isEmpty && t.tasks.all fun k => k.emitted && k.performed

/-- The depths of a tile written back, from row `y` on. -/
def State.writeDepth (d : DieNo) (t : TileRun) : Nat → Nat → State → Res Unit
  | 0, _, s => .ok () s
  | k + 1, y, s =>
    let n := min 8 (t.st.width - 8 * t.tx)
    let row := 8 * t.ty + y
    let a := (t.st.word 2).toNat + row * t.st.depthPitch + 32 * t.tx
    let bytes := (List.range n).flatMap fun x => bytesOfNat 4 (t.depth.getD (8 * y + x) 0).toNat
    if row < t.st.height then
      match State.engPutBytes (s.gctx t.st) bytes (BitVec.ofNat 64 a) s with
      | .ok _ s => State.writeDepth d t k (y + 1) s
      | .trap _ _ => State.writeDepth d t k (y + 1) (s.modGfx d fun x => { x with afault := sat8 x.afault })
      | .wait s => .wait s
      | .miss s => .miss s
    else .ok () s

/-- TILE_SLOT_RELEASE: the slot is released, its depths written back when DWRITE is 1. -/
def execTileSlotRelease (s : State) : Out :=
  let d := s.arg.die
  match s.tileRun with
  | none => .fault .noObject
  | some t =>
    if !t.drained then .fault .noObject
    else
      let (v, s1) := s.seenSlot d t
      (if t.st.dwrite then State.writeDepth d v 8 0 s1 else .ok () s1).orWait s fun _ s =>
        .next (s.modGfx d fun g => { g with tiles := g.tiles.filter fun u => !(u.batch = t.batch && u.tx = t.tx && u.ty = t.ty) })

end Sys2Proof.Machine
end

