-- ==== Sys2Proof/Machine/Build.lean ====
section
/-! DEFINITION. The build engine (R337, R338, R357). -/

namespace Sys2Proof.Machine

/-! ### Boxes (R337) -/

/-- A box: the f32 codes of LO x, y, z and of HI x, y, z. -/
structure IBox where
  lo : List Nat
  hi : List Nat
deriving DecidableEq, Repr

/-- A finite f32 code in units of 2^-149. -/
def f32Units (c : Nat) : Int := unitsOf (decodeTag 1 c) (-149)
def f32Finite (c : Nat) : Bool := !(decodeTag 1 c).isNan && !(decodeTag 1 c).isInf

/-- The box and the ID of an input's 32 bytes. -/
def boxOf (v : Nat) : IBox × Nat :=
  let w (i : Nat) : Nat := v / 2 ^ (32 * i) % 2 ^ 32
  ({ lo := [w 0, w 1, w 2], hi := [w 3, w 4, w 5] }, w 6)

/-- The input is kept (R338): every bound is finite and lo ≤ hi. -/
def IBox.kept (b : IBox) : Bool :=
  b.lo.all f32Finite && b.hi.all f32Finite && (b.lo.zip b.hi).all fun p => f32Units p.1 ≤ f32Units p.2

def IBox.union (a b : IBox) : IBox :=
  { lo := List.zipWith (fun x y => if f32Units y < f32Units x then y else x) a.lo b.lo
    hi := List.zipWith (fun x y => if f32Units x < f32Units y then y else x) a.hi b.hi }

/-- S of R338. -/
def IBox.area (b : IBox) : Int :=
  match List.zipWith (fun h l => f32Units h - f32Units l) b.hi b.lo with
  | [x, y, z] => x * y + y * z + z * x
  | _ => 0

/-! ### The hierarchy (R338) -/

/-- The binary tree of phase 2. -/
inductive BTree where
  | leaf (box : IBox) (id : Nat)
  | node (box : IBox) (l r : BTree)
deriving DecidableEq, Repr

def BTree.box : BTree → IBox
  | .leaf b _ => b
  | .node b _ _ => b
def BTree.internal : BTree → Bool
  | .leaf _ _ => false
  | .node _ _ _ => true

/-- Twice the centroid on each axis. -/
def IBox.centre (b : IBox) : List Int := List.zipWith (fun l h => f32Units l + f32Units h) b.lo b.hi

/-- The code of a centroid within bounds (R338, phase 1): bilv3 of the three positions. -/
def boxCode (lo hi c : List Int) : Nat :=
  let q (k : Nat) : Nat :=
    let l := lo.getD k 0
    let h := hi.getD k 0
    if h = l then 0 else (min 1023 (1024 * (c.getD k 0 - l) / (h - l))).toNat
  interleave 10 [q 0, q 1, q 2]

/-- An element placed in an ascending list. -/
def placeBy {α : Type} (k : α → Nat) (x : α) : List α → List α
  | [] => [x]
  | y :: l => if k y < k x then y :: placeBy k x l else x :: y :: l

/-- The kept boxes in the order of phase 2. -/
def sortBoxes (bs : List (IBox × Nat)) : List BTree :=
  let kept := bs.zipIdx.filter fun p => p.1.1.kept
  let cs := kept.map fun p => p.1.1.centre
  let fold (f : Int → Int → Int) : List Int := match cs with
    | [] => []
    | c :: r => r.foldl (fun a b => List.zipWith f a b) c
  let lo := fold min
  let hi := fold max
  let keyed := kept.map fun p => (boxCode lo hi p.1.1.centre * 2 ^ 24 + p.2, BTree.leaf p.1.1 p.1.2)
  (keyed.foldr (fun x l => placeBy Prod.fst x l) []).map Prod.snd

/-- The neighbour that cluster i names: the least union within R positions, the lower position on a tie. -/
def nearest (r : Nat) (cs : List BTree) (i : Nat) : Nat :=
  let js := (List.range cs.length).filter fun j => j ≠ i && j ≤ i + r && i ≤ j + r
  match cs[i]? with
  | none => i
  | some a =>
    (js.foldl (fun (b : Option (Int × Nat)) j =>
      match cs[j]? with
      | none => b
      | some c =>
        let s := (a.box.union c.box).area
        match b with
        | none => some (s, j)
        | some m => if s < m.1 then some (s, j) else some m) none).elim i Prod.snd

/-- One round: mutual neighbours merge at the lower position, keeping order. -/
def mergeRound (r : Nat) (cs : List BTree) : List BTree :=
  let n := (List.range cs.length).map (nearest r cs)
  cs.zipIdx.filterMap fun p =>
    let j := n.getD p.2 p.2
    if j ≠ p.2 && n.getD j j = p.2 then
      if p.2 < j then (cs[j]?).map fun c => .node (p.1.box.union c.box) p.1 c else none
    else some p.1

def clusterLoop (r : Nat) : Nat → List BTree → Option BTree
  | 0, l => l.head?
  | k + 1, l => if l.length ≤ 1 then l.head? else clusterLoop r k (mergeRound r l)

/-- The internal child of largest S, the earlier one on a tie, replaced by its two children. -/
def widen : Nat → List BTree → List BTree
  | 0, l => l
  | k + 1, l =>
    let best := l.zipIdx.foldl (fun (b : Option (Int × Nat)) p =>
      if p.1.internal then
        match b with
        | none => some (p.1.box.area, p.2)
        | some m => if m.1 < p.1.box.area then some (p.1.box.area, p.2) else some m
      else b) none
    match best with
    | none => l
    | some m => widen k (l.zipIdx.flatMap fun p =>
        if p.2 = m.2 then (match p.1 with
          | .node _ a b => [a, b]
          | t => [t]) else [p.1])

/-- An output node: its box, its children, and the bases. -/
structure OutNode where
  box : IBox
  kids : List BTree
  childBase : Nat
  primBase : Nat

/-- The nodes in breadth-first order from a list of binary nodes. -/
def collapse : Nat → List BTree → Nat → Nat → List OutNode
  | 0, _, _, _ => []
  | _ + 1, [], _, _ => []
  | k + 1, t :: q, cb, pb =>
    let kids := match t with
      | .node _ a b => widen 6 [a, b]
      | t => [t]
    let ins := kids.filter BTree.internal
    { box := t.box, kids, childBase := cb, primBase := pb } ::
      collapse k (q ++ ins) (cb + ins.length) (pb + (kids.length - ins.length))

/-- Every node of the hierarchy over the inputs. -/
def buildNodes (bs : List (IBox × Nat)) (r : Nat) : List OutNode :=
  match clusterLoop r bs.length (sortBoxes bs) with
  | none => []
  | some t => collapse (bs.length + 1) [t] 1 0

/-- EXP of an axis: the smallest i8 e with 255·2^e ≥ the extent, in units of 2^-149. -/
def axisExp (ext : Int) : Int :=
  ((List.range 256).map fun (k : Nat) => (k : Int) - 128).find? (fun e => if 0 ≤ e + 149 then ext ≤ 255 * 2 ^ (e + 149).toNat else ext = 0)
    |>.getD 127

/-- floor and ceiling of a distance ÷ 2^e. -/
def floorTo (d e : Int) : Nat := (if 0 ≤ e + 149 then d / 2 ^ (e + 149).toNat else d * 2 ^ (-(e + 149)).toNat).toNat
def ceilTo (d e : Int) : Nat := (-(if 0 ≤ e + 149 then -d / 2 ^ (e + 149).toNat else -d * 2 ^ (-(e + 149)).toNat)).toNat

/-- The 128 bytes of a node (R337); `free` gives the bytes of what it does not have. -/
def OutNode.bytes (n : OutNode) (free : Nat → Byte) : List Byte :=
  let exps := List.zipWith (fun h l => axisExp (f32Units h - f32Units l)) n.box.hi n.box.lo
  let lows := n.kids.filter fun k => !k.internal
  let child (j : Nat) (f : BTree → Byte) (off : Nat) : Byte := (n.kids[j]?).elim (free (off + j)) f
  let ord (j : Nat) (p : BTree → Bool) : Nat := ((n.kids.take j).filter p).length
  let corner (a j : Nat) (hiSide : Bool) : Byte :=
    child j (fun t =>
      let o := f32Units (n.box.lo.getD a 0)
      let e := exps.getD a 0
      BitVec.ofNat 8 (if hiSide then ceilTo (f32Units (t.box.hi.getD a 0) - o) e
        else floorTo (f32Units (t.box.lo.getD a 0) - o) e)) (32 + 8 * (a + if hiSide then 3 else 0))
  let j8 := List.range 8
  let base (present : Bool) (v off : Nat) : List Byte :=
    if present then bytesOfNat 4 v else (List.range 4).map fun i => free (off + i)
  (n.box.lo.flatMap fun c => bytesOfNat 4 c)
    ++ exps.map (fun e => BitVec.ofInt 8 e) ++ [BitVec.ofNat 8 n.kids.length]
    ++ base (lows.length < n.kids.length) n.childBase 16 ++ base (!lows.isEmpty) n.primBase 20
    ++ j8.map (fun j => child j (fun t =>
        if t.internal then BitVec.ofNat 8 (ord j BTree.internal) else BitVec.ofNat 8 (0x80 + ord j fun k => !k.internal)) 24)
    ++ ((List.range 3).flatMap fun a => j8.map fun j => corner a j false)
    ++ ((List.range 3).flatMap fun a => j8.map fun j => corner a j true)
    ++ List.replicate 48 0

/-- The references of a node. -/
def OutNode.refs (n : OutNode) : List Byte :=
  n.kids.flatMap fun t => match t with
    | .leaf _ id => bytesOfNat 4 id
    | _ => []

/-! ### The command (R338, R357) -/

def Cmd.bvN (m : Cmd) : Nat := (fld (m.reg 5) 0 24).toNat
def Cmd.bvR (m : Cmd) : Nat := (fld (m.reg 9) 0 7).toNat
/-- PHASE and ITEM, which the command advances. -/
def Cmd.bvPhase (m : Cmd) : Nat := (fld (m.reg 11) 0 32).toNat
def Cmd.bvItem (m : Cmd) : Nat := (fld (m.reg 11) 32 32).toNat

def Cmd.bvOk (m : Cmd) : Bool :=
  m.bvN ≠ 0 && fld (m.reg 5) 24 40 = 0 && fld (m.reg 4) 0 5 = 0 && fld (m.reg 6) 0 7 = 0 && fld (m.reg 7) 0 2 = 0
    && fld (m.reg 8) 0 6 = 0 && fld (m.reg 9) 7 57 = 0 && 1 ≤ m.bvR && m.bvR ≤ 64 && m.bvPhase ≤ 3

def execBvBuild (s : State) : Out :=
  s.retryOr 6 (fun _ => id) <| s.cwaGate 6 <|
    let m := s.capturedCmd 6
    if !m.bvOk then s.illegal
    else
      let c := s.ctxOf s.slotNo true
      let lk (i z : Nat) (wr : Bool) : Lock := s.lockOf c (m.reg i).toNat ((m.reg i).toNat + z * m.bvN) wr
      s.issue { m with locks := [lk 4 32 false, lk 6 128 true, lk 7 4 true, lk 8 64 true] } id

/-- The inputs read, from number i on: `k` are left. -/
def State.readBoxes (c : Ctx) (m : Cmd) : Nat → Nat → State → Res (List Nat)
  | 0, _, s => .ok [] s
  | k + 1, i, s =>
    (s.engRead c (((m.reg 4).toNat + 32 * i) * 8 : Nat) 256).bind fun v s =>
      (State.readBoxes c m k (i + 1) s).bind fun l s => .ok (v :: l) s

/-- The byte ranges of a build: IN, NODES, REFS and SCR. -/
def Cmd.bvRanges (m : Cmd) : List (Nat × Nat) :=
  [(4, 32), (6, 128), (7, 4), (8, 64)].map fun p => ((m.reg p.1).toNat, (m.reg p.1).toNat + p.2 * m.bvN)

/-- The inputs overlap what the build writes (R275). -/
def State.bvMeets (s : State) (c : Ctx) (m : Cmd) : Bool :=
  match m.bvRanges with
  | src :: outs => outs.any fun d => s.rangesMeet c src d
  | [] => false

/-- Input `i`, and the inputs that the command then holds: all of them from its first item on where they overlap what it writes,
as they stood before it began (R275). -/
def State.bvInput (s : State) (c : Ctx) (m : Cmd) (i : Nat) : Res (List Nat) :=
  if m.snap.length = m.bvN then .ok m.snap s
  else if i = 0 && s.bvMeets c m then State.readBoxes c m m.bvN 0 s
  else (s.engRead c (((m.reg 4).toNat + 32 * i) * 8 : Nat) 256).bind fun v s =>
    .ok (if m.snap.length = i then m.snap ++ [v] else m.snap) s

/-- The build has read its inputs, and with `scr` is done with its scratch: those entries are released (R276). -/
def State.bvRelease (s : State) (m : Cmd) (scr : Bool) : State :=
  s.releaseEntries m.id fun l => !l.wr || (scr && some l = m.locks.getLast?)

/-- `n` bytes of scratch from an offset, of which the spec states no contents. -/
def State.scribble (s : State) (c : Ctx) (m : Cmd) (off n : Nat) : Res Unit :=
  let d := s.drawn
  State.engPutBytes c ((List.range n).map fun i => Config.scratchByte (d + i)) (m.reg 8 + BitVec.ofNat 64 off)
    { s with drawn := d + n }

/-- PHASE and ITEM after an item. -/
def State.bvAt (s : State) (m : Cmd) (phase item : Nat) : State :=
  let v := BitVec.ofNat 64 (item * 2 ^ 32 + phase)
  (s.modSlot m.slot fun t => t.setEreg 6 11 v).modCmd m.id fun k => { k with er := k.er.setIfInBounds 11 v }

/-- The build is complete: RESULT, PHASE and ITEM. -/
def State.bvDone (s : State) (m : Cmd) (bs : List (IBox × Nat)) (nodes : Nat) : State :=
  let skipped := (bs.filter fun b => !b.1.kept).length
  ((s.bvAt m 0 0).modSlot m.slot fun t => t.setEreg 6 10 (BitVec.ofNat 64 (skipped * 2 ^ 32 + nodes))).finishCmd m.id

/-- The command that a die's build engine runs. -/
def State.bvHead (s : State) (d : DieNo) : Option Cmd :=
  s.cmds.find? fun m => m.eng = 6 && !m.stopped && !m.finished && dieOf m.slot = d

/-- BUILD_ITEM: the next item of the phase. Items are a box in the first phase and a node in the last; the sort and the
clustering are one item each. -/
def execBuildItem (s : State) : Out :=
  s.withCmd 6 fun m =>
    if (s.bvHead (dieOf m.slot)).map Cmd.id ≠ some m.id then .fault .noObject
    else
      let c := s.ctxCmd m
      let i := m.bvItem
      match m.bvPhase with
      | 0 =>
        if m.bvN ≤ i then .next (s.bvAt m 1 0)
        else
          ((s.bvInput c m i).bind fun vs s => (s.scribble c m (64 * i) 64).bind fun _ s => .ok vs s).step s m fun vs s =>
            let s := s.modCmd m.id fun k => { k with snap := vs }
            let s := if vs.length = m.bvN then s.bvRelease m false else s
            .next (if i + 1 = m.bvN then s.bvAt m 1 0 else s.bvAt m 0 (i + 1))
      | 3 =>
        let all : Res (List Nat) := if m.snap.length = m.bvN then .ok m.snap s else State.readBoxes c m m.bvN 0 s
        (all.bind fun vs s =>
          let nodes := buildNodes (vs.map boxOf) m.bvR
          match nodes[i]? with
          | none => .ok (vs, nodes.length) s
          | some n =>
            let free (k : Nat) : Byte := Config.buildByte vs m.bvR (128 * i + k)
            (State.engPutBytes c (n.bytes free) (m.reg 6 + BitVec.ofNat 64 (128 * i)) s).bind fun _ s =>
              (State.engPutBytes c n.refs (m.reg 7 + BitVec.ofNat 64 (4 * n.primBase)) s).bind fun _ s =>
                .ok (vs, nodes.length) s).step s m fun r s =>
              .next (if r.2 ≤ i + 1 then s.bvDone m (r.1.map boxOf) r.2
                else
                  let s := if m.snap.length = m.bvN then s else s.bvRelease m true
                  (s.modCmd m.id fun k => { k with snap := r.1 }).bvAt m 3 (i + 1))
      | p => (s.scribble c m 0 (64 * m.bvN)).step s m fun _ s =>
          .next ((if p = 2 && m.snap.length = m.bvN then s.bvRelease m true else s).bvAt m (p + 1) 0)

end Sys2Proof.Machine
end

