-- ==== Sys2Proof/Machine/Float.lean ====
section
/-! DEFINITION. Scalar floating point (R119 to R128). -/

namespace Sys2Proof.Machine

/-- Whether an exact zero of opposite signs is −0: under RDN (R122). -/
def State.rdn (s : State) (r : Nat) : Bool := s.rmode r = some .rdn

/-- A rounding form (R121): its exact result is rounded once to tag t; `ext` extends the code to 64 bits. A reserved FRM
traps ILLEGAL. The words that the operands pop are those of `reads`. -/
def State.fpOut (s : State) (reads : List RegNo) (d : RegNo) (t r : Nat) (ext : Nat → Dword) (y : XRes) : Out :=
  s.linkGate reads (some d)
    (match s.fpRound t r y with
     | none => s.illegal
     | some (c, s') => .next (s'.retire reads d (ext c)))

/-- The two-operand rounding form: the operands with the modifiers of a prefix (R87). -/
def State.fp2 (s : State) (d a b : RegNo) (f : BitVec 2) (r : Nat) (op : XV → XV → XRes) : Out :=
  s.fpOut [a, b] d f.toNat r (BitVec.ofNat 64)
    (op (modA s.slot.mods (fpArg f (s.src [] a))) (modB s.slot.mods (fpArg f (s.src [a] b))))

def execFadd (d a b : RegNo) (f : BitVec 2) (r : BitVec 3) (s : State) : Out :=
  s.fp2 d a b f r.toNat (XV.add (s.rdn r.toNat))
def execFsub (d a b : RegNo) (f : BitVec 2) (r : BitVec 3) (s : State) : Out :=
  s.fp2 d a b f r.toNat (XV.sub (s.rdn r.toNat))
def execFmul (d a b : RegNo) (f : BitVec 2) (r : BitVec 3) (s : State) : Out := s.fp2 d a b f r.toNat XV.mul
def execFdiv (d a b : RegNo) (f : BitVec 2) (r : BitVec 3) (s : State) : Out := s.fp2 d a b f r.toNat XV.div

def execFsqrt (d a : RegNo) (f : BitVec 2) (r : BitVec 3) (s : State) : Out :=
  s.fpOut [a] d f.toNat r.toNat (BitVec.ofNat 64) (XV.sqrt (fpArg f (s.src [] a)))

/-- fmac and fnmac (R123): the addend is the old rd, which no modifier touches. -/
def State.fma3 (s : State) (d a b : RegNo) (f : BitVec 2) (r : Nat) (neg : Bool) : Out :=
  let x := modA s.slot.mods (fpArg f (s.src [] a))
  let y := modB s.slot.mods (fpArg f (s.src [a] b))
  let c := fpArg f (s.src [a, b] d)
  s.fpOut [a, b, d] d f.toNat r (BitVec.ofNat 64) (XV.fma (s.rdn r) (if neg then x.negate else x) y c)

def execFmac (d a b : RegNo) (f : BitVec 2) (r : BitVec 3) (s : State) : Out := s.fma3 d a b f r.toNat false
def execFnmac (d a b : RegNo) (f : BitVec 2) (r : BitVec 3) (s : State) : Out := s.fma3 d a b f r.toNat true

/-- fmin and fmax do not round (R121, R124): without a prefix the result is an operand's value, so that no rounding mode
matters; with one, the exact result after SCALE and CLAMP is rounded with the mode in FRM (log 20). -/
def State.fpPick (s : State) (d a b : RegNo) (f : BitVec 2) (op : XV → XV → XRes) : Out :=
  s.fp2 d a b f (if s.slot.mods.isNone then 0 else 7) op

def execFmin (d a b : RegNo) (f : BitVec 2) (s : State) : Out := s.fpPick d a b f XV.minNum
def execFmax (d a b : RegNo) (f : BitVec 2) (s : State) : Out := s.fpPick d a b f XV.maxNum

/-- The floating-point compares (R125): `quiet`, only a signalling NaN sets NV. -/
def State.fpCmp (s : State) (d a b : RegNo) (f : BitVec 2) (quiet : Bool) (op : XV → XV → Bool) : Out :=
  let x := fpArg f (s.src [] a)
  let y := fpArg f (s.src [a] b)
  let nv := flagIf (if quiet then x.isSig || y.isSig else x.isNan || y.isNan) fNV
  s.linkGate [a, b] (some d) (.next ((s.orFflags nv).compare [a, b] d (op x y)))

def execFceq (d a b : RegNo) (f : BitVec 2) (s : State) : Out := s.fpCmp d a b f true XV.eq
def execFclt (d a b : RegNo) (f : BitVec 2) (s : State) : Out := s.fpCmp d a b f false XV.lt
def execFcle (d a b : RegNo) (f : BitVec 2) (s : State) : Out := s.fpCmp d a b f false XV.le

/-- A code extended to 64 bits: signed for i tags (R120). -/
def extendTag (t c : Nat) : Dword := if tagIsI t then BitVec.ofInt 64 (signedOf (tagMem t) c) else BitVec.ofNat 64 c

/-- fcvtf: from fmt to the tag (R126). With the mode RSR it advances SRSEED, to b1 too (DEDUCED, log 79). -/
def execFcvtf (d a t : RegNo) (f : BitVec 2) (r : BitVec 3) (s : State) : Out :=
  let x := fpArg f (s.src [] a)
  s.fpOut [a] d t.toNat r.toNat (extendTag t.toNat) ⟨modA s.slot.mods x, flagIf x.isSig fNV⟩

/-- fcvtt: from the tag to fmt (R126). -/
def execFcvtt (d a t : RegNo) (f : BitVec 2) (r : BitVec 3) (s : State) : Out :=
  let x := decodeTag t.toNat (s.src [] a).toNat
  s.fpOut [a] d f.toNat r.toNat (BitVec.ofNat 64) ⟨modA s.slot.mods x, flagIf x.isSig fNV⟩

/-- The class word of R127. -/
def classWord (f : BitVec 2) (x : Dword) : Dword :=
  let k := fpFmt f.toNat
  let v := fpArg f x
  let sign := x.getLsbD (k.eb + k.fb)
  let (kind, e) : Nat × Int :=
    match v with
    | .nan sig => (if sig then 5 else 4, 0)
    | .inf _ => (3, 0)
    | .fin _ n d =>
      if n = 0 then (0, 0)
      else
        let e := ilog2 n d
        (if e < 1 - (k.bias : Int) then 1 else 2, e)
  BitVec.ofNat 64 (codeOf 16 e * 2 ^ 16 + b2n sign * 8 + kind)

def execFclass (d a : RegNo) (f : BitVec 2) (s : State) : Out := s.op1 d a (classWord f)

end Sys2Proof.Machine
end

