-- ==== Sys2Proof/Machine/Texel.lean ====
section
/-! DEFINITION. What a block of texels decodes to (R330, R334). The layouts of the compressed formats are those of the
document that R334 names, the Khronos Data Format Specification 1.3 (log 26); its choices are R334's. -/

namespace Sys2Proof.Machine

/-- Width and height of a block in texels, and its bytes. -/
def texBlock (f : Nat) : Nat × Nat × Nat :=
  match f with
  | 0 => (1, 1, 4)
  | 1 => (1, 1, 2)
  | 2 => (1, 1, 1)
  | 3 => (1, 1, 8)
  | 4 => (1, 1, 2)
  | 5 => (1, 1, 16)
  | 8 | 11 => (4, 4, 8)
  | 9 | 10 | 12 | 13 | 16 => (4, 4, 16)
  | 17 => (5, 4, 16)
  | 18 => (5, 5, 16)
  | 19 => (6, 5, 16)
  | 20 => (6, 6, 16)
  | 21 => (8, 5, 16)
  | 22 => (8, 6, 16)
  | 23 => (8, 8, 16)
  | 24 => (10, 5, 16)
  | 25 => (10, 6, 16)
  | 26 => (10, 8, 16)
  | 27 => (10, 10, 16)
  | 28 => (12, 10, 16)
  | _ => (12, 12, 16)

/-- `n` bits from bit `lo` of a block. -/
def bitsAt (v lo n : Nat) : Nat := v / 2 ^ lo % 2 ^ n

/-! ### BC1 to BC5 -/

/-- The two colours' channels of a BC1-style colour block, 5:6:5 widened by replication. -/
def bcEnd (c : Nat) : List Nat :=
  let r := c / 2 ^ 11 % 32
  let g := c / 2 ^ 5 % 64
  let b := c % 32
  [r * 8 + r / 4, g * 4 + g / 16, b * 8 + b / 4]

/-- R, G, B, A of a texel of a colour block; `four`: four colours always. -/
def bcColour (four : Bool) (v x y : Nat) : List Nat :=
  let c0 := v % 2 ^ 16
  let c1 := v / 2 ^ 16 % 2 ^ 16
  let e0 := bcEnd c0
  let e1 := bcEnd c1
  let mix (f : Nat → Nat → Nat) : List Nat := List.zipWith f e0 e1 ++ [255]
  match v / 2 ^ (32 + 2 * (4 * y + x)) % 4 with
  | 0 => e0 ++ [255]
  | 1 => e1 ++ [255]
  | 2 => if four || c1 < c0 then mix fun a b => (2 * a + b + 1) / 3 else mix fun a b => (a + b + 1) / 2
  | _ => if four || c1 < c0 then mix fun a b => (a + 2 * b + 1) / 3 else [0, 0, 0, 0]

/-- A texel of a single-channel block. -/
def bcChannel (v x y : Nat) : Nat :=
  let a0 := v % 256
  let a1 := v / 256 % 256
  let j := v / 2 ^ (16 + 3 * (4 * y + x)) % 8
  if j = 0 then a0
  else if j = 1 then a1
  else if a1 < a0 then ((8 - j) * a0 + (j - 1) * a1 + 3) / 7
  else if j = 6 then 0
  else if j = 7 then 255
  else ((6 - j) * a0 + (j - 1) * a1 + 2) / 5

/-! ### BC7 -/

/-- The fields of a BC7 mode: subsets, bits of the partition, the rotation, the index selection, a colour and an alpha
endpoint, P-bits per endpoint and per subset, bits of a first and a second index. -/
structure Bc7Mode where
  ns : Nat
  pb : Nat
  rb : Nat
  isb : Nat
  cb : Nat
  ab : Nat
  epb : Nat
  spb : Nat
  ib : Nat
  ib2 : Nat
deriving DecidableEq, Repr

def bc7Modes : List Bc7Mode :=
  [⟨3, 4, 0, 0, 4, 0, 1, 0, 3, 0⟩, ⟨2, 6, 0, 0, 6, 0, 0, 1, 3, 0⟩, ⟨3, 6, 0, 0, 5, 0, 0, 0, 2, 0⟩,
   ⟨2, 6, 0, 0, 7, 0, 1, 0, 2, 0⟩, ⟨1, 0, 2, 1, 5, 6, 0, 0, 2, 3⟩, ⟨1, 0, 2, 0, 7, 8, 0, 0, 2, 2⟩,
   ⟨1, 0, 0, 0, 7, 7, 1, 0, 4, 0⟩, ⟨2, 6, 0, 0, 5, 5, 1, 0, 2, 0⟩]

/-- The partitions of two subsets: bit i is texel i's subset. -/
def bc7Part2 : List Nat :=
  [0xCCCC, 0x8888, 0xEEEE, 0xECC8, 0xC880, 0xFEEC, 0xFEC8, 0xEC80,
   0xC800, 0xFFEC, 0xFE80, 0xE800, 0xFFE8, 0xFF00, 0xFFF0, 0xF000]
    ++ [0xF710, 0x008E, 0x7100, 0x08CE, 0x008C, 0x7310, 0x3100, 0x8CCE,
        0x088C, 0x3110, 0x6666, 0x366C, 0x17E8, 0x0FF0, 0x718E, 0x399C]
    ++ [0xAAAA, 0xF0F0, 0x5A5A, 0x33CC, 0x3C3C, 0x55AA, 0x9696, 0xA55A,
        0x73CE, 0x13C8, 0x324C, 0x3BDC, 0x6996, 0xC33C, 0x9966, 0x0660]
    ++ [0x0272, 0x04E4, 0x4E40, 0x2720, 0xC936, 0x936C, 0x39C6, 0x639C,
        0x9336, 0x9CC6, 0x817E, 0xE718, 0xCCF0, 0x0FCC, 0x7744, 0xEE22]

/-- The partitions of three subsets: bits 2i + 1 and 2i are texel i's subset. -/
def bc7Part3 : List Nat :=
  [0xAA685050, 0x6A5A5040, 0x5A5A4200, 0x5450A0A8, 0xA5A50000, 0xA0A05050, 0x5555A0A0, 0x5A5A5050]
    ++ [0xAA550000, 0xAA555500, 0xAAAA5500, 0x90909090, 0x94949494, 0xA4A4A4A4, 0xA9A59450, 0x2A0A4250]
    ++ [0xA5945040, 0x0A425054, 0xA5A5A500, 0x55A0A0A0, 0xA8A85454, 0x6A6A4040, 0xA4A45000, 0x1A1A0500]
    ++ [0x0050A4A4, 0xAAA59090, 0x14696914, 0x69691400, 0xA08585A0, 0xAA821414, 0x50A4A450, 0x6A5A0200]
    ++ [0xA9A58000, 0x5090A0A8, 0xA8A09050, 0x24242424, 0x00AA5500, 0x24924924, 0x24499224, 0x50A50A50]
    ++ [0x500AA550, 0xAAAA4444, 0x66660000, 0xA5A0A5A0, 0x50A050A0, 0x69286928, 0x44AAAA44, 0x66666600]
    ++ [0xAA444444, 0x54A854A8, 0x95809580, 0x96969600, 0xA85454A8, 0x80959580, 0xAA141414, 0x96960000]
    ++ [0xAAAA1414, 0xA05050A0, 0xA0A5A5A0, 0x96000000, 0x40804080, 0xA9A8A9A8, 0xAAAAAA44, 0x2A4A5254]

/-- The anchor of the second of two subsets, and of the second and the third of three. -/
def bc7Anchor2 : List Nat :=
  [15, 15, 15, 15, 15, 15, 15, 15, 15, 15, 15, 15, 15, 15, 15, 15,
   15, 2, 8, 2, 2, 8, 8, 15, 2, 8, 2, 2, 8, 8, 2, 2]
    ++ [15, 15, 6, 8, 2, 8, 15, 15, 2, 8, 2, 2, 2, 15, 15, 6, 6, 2, 6, 8, 15, 15, 2, 2, 15, 15, 15, 15, 15, 2, 2, 15]
def bc7Anchor3a : List Nat :=
  [3, 3, 15, 15, 8, 3, 15, 15, 8, 8, 6, 6, 6, 5, 3, 3, 3, 3, 8, 15, 3, 3, 6, 10, 5, 8, 8, 6, 8, 5, 15, 15]
    ++ [8, 15, 3, 5, 6, 10, 8, 15, 15, 3, 15, 5, 15, 15, 15, 15, 3, 15, 5, 5, 5, 8, 5, 10, 5, 10, 8, 13, 15, 12, 3, 3]
def bc7Anchor3b : List Nat :=
  [15, 8, 8, 3, 15, 15, 3, 8, 15, 15, 15, 15, 15, 15, 15, 8,
   15, 8, 15, 3, 15, 8, 15, 8, 3, 15, 6, 10, 15, 15, 10, 8]
    ++ [15, 3, 15, 10, 10, 8, 9, 10, 6, 15, 8, 15, 3, 6, 6, 8,
        15, 3, 15, 15, 15, 15, 15, 15, 15, 15, 15, 15, 3, 15, 15, 8]

/-- The subset of texel i in partition p. -/
def bc7Subset (ns p i : Nat) : Nat :=
  match ns with
  | 1 => 0
  | 2 => bitsAt (bc7Part2.getD p 0) i 1
  | _ => bitsAt (bc7Part3.getD p 0) (2 * i) 2

def bc7Anchors (ns p : Nat) : List Nat :=
  match ns with
  | 1 => [0]
  | 2 => [0, bc7Anchor2.getD p 0]
  | _ => [0, bc7Anchor3a.getD p 0, bc7Anchor3b.getD p 0]

/-- The weight of an index of n bits. -/
def bc7Weight (n k : Nat) : Nat :=
  (match n with
    | 2 => [0, 21, 43, 64]
    | 3 => [0, 9, 18, 27, 37, 46, 55, 64]
    | _ => [0, 4, 9, 13, 17, 21, 26, 30, 34, 38, 43, 47, 51, 55, 60, 64]).getD k 0

/-- Texel i's index in a field of n-bit indices from bit `lo`: those of anchors are a bit shorter. -/
def bc7Index (v lo n : Nat) (anchors : List Nat) (i : Nat) : Nat :=
  bitsAt v (lo + i * n - (anchors.filter (· < i)).length) (if anchors.contains i then n - 1 else n)

/-- R, G, B, A of texel i of a block in a mode whose number is k. -/
def bc7In (q : Bc7Mode) (k v i : Nat) : List Nat :=
  let p := bitsAt v (k + 1) q.pb
  let rot := bitsAt v (k + 1 + q.pb) q.rb
  let sel := bitsAt v (k + 1 + q.pb + q.rb) q.isb
  let o := k + 1 + q.pb + q.rb + q.isb
  let ne := 2 * q.ns
  let op := o + ne * (3 * q.cb + q.ab)
  let oi := op + ne * q.epb + q.ns * q.spb
  let widen (n c : Nat) : Nat := c * 2 ^ (8 - n) + c / 2 ^ (2 * n - 8)
  let endp (e c : Nat) : Nat :=
    if c = 3 && q.ab = 0 then 255
    else
      let n := if c = 3 then q.ab else q.cb
      let raw := bitsAt v (o + ne * q.cb * c + e * n) n
      if q.epb = 1 then widen (n + 1) (2 * raw + bitsAt v (op + e) 1)
      else if q.spb = 1 then widen (n + 1) (2 * raw + bitsAt v (op + e / 2) 1)
      else widen n raw
  let s := bc7Subset q.ns p i
  let w1 := bc7Weight q.ib (bc7Index v oi q.ib (bc7Anchors q.ns p) i)
  let w2 := if q.ib2 = 0 then w1 else bc7Weight q.ib2 (bc7Index v (oi + 16 * q.ib - q.ns) q.ib2 [0] i)
  let px := (List.range 4).map fun c =>
    let w := if c = 3 ↔ sel = 0 then w2 else w1
    ((64 - w) * endp (2 * s) c + w * endp (2 * s + 1) c + 32) / 64
  if rot = 0 then px else (px.set 3 (px.getD (rot - 1) 0)).set (rot - 1) (px.getD 3 0)

/-- A texel of a BC7 block; the reserved mode decodes to zeros. -/
def bc7Texel (v x y : Nat) : List Nat :=
  match (List.range 8).find? fun k => v.testBit k with
  | none => [0, 0, 0, 0]
  | some k => (bc7Modes[k]?).elim [0, 0, 0, 0] fun q => bc7In q k v (4 * y + x)

/-! ### ASTC -/

/-- What an illegal encoding decodes to. -/
def astcError : List Nat := [255, 0, 255, 255]

/-- Base 3 digits, base 5 digits (0 or 1 each) and bits of the values of a quantization level. -/
def iseLevel : List (Nat × Nat × Nat) :=
  [(0, 0, 1), (1, 0, 0), (0, 0, 2), (0, 1, 0), (1, 0, 1),
   (0, 0, 3), (0, 1, 1), (1, 0, 2), (0, 0, 4), (0, 1, 2), (1, 0, 3)]
    ++ [(0, 0, 5), (0, 1, 3), (1, 0, 4), (0, 0, 6), (0, 1, 4), (1, 0, 5), (0, 0, 7), (0, 1, 5), (1, 0, 6), (0, 0, 8)]

/-- The bits of a sequence of n values. -/
def iseBits (l n : Nat) : Nat :=
  let (t, q, b) := iseLevel.getD l (0, 0, 1)
  b * n + t * ((8 * n + 4) / 5) + q * ((7 * n + 2) / 3)

/-- The five base 3 digits of 8 bits. -/
def tritsOf (t : Nat) : List Nat :=
  let (c, t3, t4) :=
    if bitsAt t 2 3 = 7 then (t / 32 * 4 + t % 4, 2, 2)
    else if bitsAt t 5 2 = 3 then (t % 32, t / 128, 2)
    else (t % 32, bitsAt t 5 2, t / 128)
  let c3 := bitsAt c 3 1
  let c1 := bitsAt c 1 1
  if c % 4 = 3 then [c3 * 2 + bitsAt c 2 1 * (1 - c3), c / 16, 2, t3, t4]
  else if bitsAt c 2 2 = 3 then [c % 4, 2, 2, t3, t4]
  else [c1 * 2 + c % 2 * (1 - c1), bitsAt c 2 2, c / 16, t3, t4]

/-- The three base 5 digits of 7 bits. -/
def quintsOf (q : Nat) : List Nat :=
  let q0 := q % 2
  if bitsAt q 1 2 = 3 && q / 32 = 0 then [4, 4, q0 * 4 + bitsAt q 4 1 * (1 - q0) * 2 + bitsAt q 3 1 * (1 - q0)]
  else
    let (c, d) := if bitsAt q 1 2 = 3 then (bitsAt q 3 2 * 8 + (3 - q / 32) * 2 + q0, 4) else (q % 32, q / 32)
    if c % 8 = 5 then [c / 8, 4, d] else [c % 8, c / 8, d]

/-- The digit and the bits of value i of a sequence that starts at bit 0. -/
def iseValue (l v i : Nat) : Nat × Nat :=
  let (t, q, b) := iseLevel.getD l (0, 0, 1)
  if t = 1 then
    let o := i / 5 * (5 * b + 8)
    let d := bitsAt v (o + b) 2 + bitsAt v (o + 2 * b + 2) 2 * 4 + bitsAt v (o + 3 * b + 4) 1 * 16
      + bitsAt v (o + 4 * b + 5) 2 * 32 + bitsAt v (o + 5 * b + 7) 1 * 128
    ((tritsOf d).getD (i % 5) 0, bitsAt v (o + i % 5 * b + [0, 2, 4, 5, 7].getD (i % 5) 0) b)
  else if q = 1 then
    let o := i / 3 * (3 * b + 7)
    let d := bitsAt v (o + b) 3 + bitsAt v (o + 2 * b + 3) 2 * 8 + bitsAt v (o + 3 * b + 5) 2 * 32
    ((quintsOf d).getD (i % 3) 0, bitsAt v (o + i % 3 * b + [0, 3, 5].getD (i % 3) 0) b)
  else (0, bitsAt v (i * b) b)

/-- The value of b bits repeated to w bits. -/
def repBits (b v w : Nat) : Nat :=
  let k := (w + b - 1) / b
  (List.range k).foldl (fun a _ => a * 2 ^ b + v) 0 / 2 ^ (k * b - w)

/-- A colour value of a level as 8 bits. -/
def astcColour (l : Nat) (p : Nat × Nat) : Nat :=
  let (t, q, b) := iseLevel.getD l (0, 0, 1)
  let (d, m) := p
  if t + q = 0 then repBits b m 8
  else
    let a := if m % 2 = 1 then 0x1FF else 0
    let x := m / 2
    let bc :=
      match t, b with
      | _, 1 => (0, if t = 1 then 204 else 113)
      | 1, 2 => (278 * x, 93)
      | 1, 3 => (133 * x, 44)
      | 1, 4 => (65 * x, 22)
      | 1, 5 => (x * 32 + x / 4, 11)
      | 1, _ => (x * 16 + x / 16, 5)
      | _, 2 => (268 * x, 54)
      | _, 3 => (x * 128 + x * 2 + x / 2, 26)
      | _, 4 => (x * 64 + x / 2, 13)
      | _, _ => (x * 32 + x / 8, 6)
    (a &&& 0x80) ||| (((d * bc.2 + bc.1) ^^^ a) / 4)

/-- A weight of a level, 0 to 64. -/
def astcWeight (l : Nat) (p : Nat × Nat) : Nat :=
  let (t, q, b) := iseLevel.getD l (0, 0, 1)
  let (d, m) := p
  let w :=
    if t + q = 0 then repBits b m 6
    else if b = 0 then if t = 1 then [0, 32, 63].getD d 0 else [0, 16, 32, 47, 63].getD d 0
    else
      let a := if m % 2 = 1 then 0x7F else 0
      let x := m / 2
      let bc :=
        match t, b with
        | 1, 1 => (0, 50)
        | 1, 2 => (69 * x, 23)
        | 1, _ => (33 * x, 11)
        | _, 1 => (0, 28)
        | _, _ => (66 * x, 13)
      (a &&& 0x20) ||| (((d * bc.2 + bc.1) ^^^ a) / 4)
  if 32 < w then w + 1 else w

/-- The weight grid of a block mode: its width and height, the level of its weights, and whether it has two planes. -/
structure AstcMode where
  w : Nat
  h : Nat
  level : Nat
  dual : Bool
deriving DecidableEq, Repr

/-- The low 11 bits of a block; none where they are reserved. -/
def astcMode (m : Nat) : Option AstcMode :=
  let a := bitsAt m 5 2
  let b := bitsAt m 7 2
  let mk (r w h hi d : Nat) : Option AstcMode :=
    if r < 2 then none else some { w, h, level := r - 2 + 6 * hi, dual := d = 1 }
  if m % 4 ≠ 0 then
    let r := bitsAt m 4 1 + m % 4 * 2
    let mk := fun w h => mk r w h (bitsAt m 9 1) (bitsAt m 10 1)
    match bitsAt m 2 2 with
    | 0 => mk (b + 4) (a + 2)
    | 1 => mk (b + 8) (a + 2)
    | 2 => mk (a + 2) (b + 8)
    | _ => if b < 2 then mk (a + 2) (b + 6) else mk (b % 2 + 2) (a + 2)
  else
    let r := bitsAt m 4 1 + bitsAt m 2 2 * 2
    match b with
    | 0 => mk r 12 (a + 2) (bitsAt m 9 1) (bitsAt m 10 1)
    | 1 => mk r (a + 2) 12 (bitsAt m 9 1) (bitsAt m 10 1)
    | 2 => mk r (a + 6) (bitsAt m 9 2 + 6) 0 0
    | _ =>
      if a = 0 then mk r 6 10 (bitsAt m 9 1) (bitsAt m 10 1)
      else if a = 1 then mk r 10 6 (bitsAt m 9 1) (bitsAt m 10 1)
      else none

/-- The hash of a partition's seed. -/
def astcHash (p : BitVec 32) : BitVec 32 :=
  let p := p ^^^ (p >>> 15)
  let p := p - (p <<< 17)
  let p := p + (p <<< 7)
  let p := p + (p <<< 4)
  let p := p ^^^ (p >>> 5)
  let p := p + (p <<< 16)
  let p := p ^^^ (p >>> 7)
  let p := p ^^^ (p >>> 3)
  let p := p ^^^ (p <<< 6)
  p ^^^ (p >>> 17)

/-- The partition, of n, of a texel in a block of `texels`. -/
def astcPartition (seed n texels x y : Nat) : Nat :=
  let k := if texels < 31 then 2 else 1
  let r := (astcHash (BitVec.ofNat 32 (seed + (n - 1) * 1024))).toNat
  let sa := if seed.testBit 1 then 4 else 5
  let sb := if n = 3 then 6 else 5
  let sh1 := if seed % 2 = 1 then sa else sb
  let sh2 := if seed % 2 = 1 then sb else sa
  let sd (o s : Nat) : Nat := bitsAt r o 4 ^ 2 / 2 ^ s
  let line (o1 o2 o3 : Nat) : Nat := (sd o1 sh1 * (x * k) + sd o2 sh2 * (y * k) + r / 2 ^ o3) % 64
  let a := line 0 4 14
  let b := line 8 12 10
  let c := if n < 3 then 0 else line 16 20 6
  let d := if n < 4 then 0 else line 24 28 2
  if b ≤ a && c ≤ a && d ≤ a then 0 else if c ≤ b && d ≤ b then 1 else if d ≤ c then 2 else 3

/-- The two colours of an endpoint mode from its values; none for an HDR mode. -/
def astcEnds (cem : Nat) (v : Nat → Nat) : Option (List Nat × List Nat) :=
  let clamp (x : Int) : Nat := (min (max x 0) 255).toNat
  let contract (r g b a : Int) : List Nat := [(r + b) / 2, (g + b) / 2, b, a].map clamp
  let plain (r g b a : Int) : List Nat := [r, g, b, a].map clamp
  -- a pair of a base and a signed offset
  let base (i : Nat) : Int := (v i / 2 + v (i + 1) / 128 * 128 : Nat)
  let off (i : Nat) : Int := signedOf 6 (v (i + 1) / 2 % 64)
  let direct (a0 a1 : Nat) : List Nat × List Nat :=
    if v 0 + v 2 + v 4 ≤ v 1 + v 3 + v 5 then (plain (v 0) (v 2) (v 4) a0, plain (v 1) (v 3) (v 5) a1)
    else (contract (v 1) (v 3) (v 5) a1, contract (v 0) (v 2) (v 4) a0)
  let offset (a0 a1 : Int) : List Nat × List Nat :=
    let far := [base 0 + off 0, base 2 + off 2, base 4 + off 4]
    if 0 ≤ off 0 + off 2 + off 4 then
      (plain (base 0) (base 2) (base 4) a0, plain (far.getD 0 0) (far.getD 1 0) (far.getD 2 0) a1)
    else (contract (far.getD 0 0) (far.getD 1 0) (far.getD 2 0) a1, contract (base 0) (base 2) (base 4) a0)
  let scaled (k a : Nat) : List Nat := [v 0 * k / 256, v 1 * k / 256, v 2 * k / 256, a]
  match cem with
  | 0 => some ([v 0, v 0, v 0, 255], [v 1, v 1, v 1, 255])
  | 1 =>
    let l0 := v 0 / 4 + v 1 / 64 * 64
    let l1 := min 255 (l0 + v 1 % 64)
    some ([l0, l0, l0, 255], [l1, l1, l1, 255])
  | 4 => some ([v 0, v 0, v 0, v 2], [v 1, v 1, v 1, v 3])
  | 5 =>
    some (plain (base 0) (base 0) (base 0) (base 2),
      plain (base 0 + off 0) (base 0 + off 0) (base 0 + off 0) (base 2 + off 2))
  | 6 => some (scaled (v 3) 255, [v 0, v 1, v 2, 255])
  | 8 => some (direct 255 255)
  | 9 => some (offset 255 255)
  | 10 => some (scaled (v 3) (v 4), [v 0, v 1, v 2, v 5])
  | 12 => some (direct (v 6) (v 7))
  | 13 => some (offset (base 6) (base 6 + off 6))
  | _ => none

/-- The weight of a texel of a block of bw by bh, from the grid `g` of w by h. -/
def astcInfill (bw bh w h : Nat) (g : Nat → Nat) (x y : Nat) : Nat :=
  let s := ((1024 + bw / 2) / (bw - 1) * x * (w - 1) + 32) / 64
  let t := ((1024 + bh / 2) / (bh - 1) * y * (h - 1) + 32) / 64
  let fs := s % 16
  let ft := t % 16
  let w11 := (fs * ft + 8) / 16
  let at_ (i k : Nat) : Nat := if k = 0 then 0 else g i * k
  let o := s / 16 + t / 16 * w
  (at_ o (16 + w11 - fs - ft) + at_ (o + 1) (fs - w11) + at_ (o + w) (ft - w11) + at_ (o + w + 1) w11 + 8) / 16

/-- A void extent: one colour, where its extent is legal and its colour is not HDR. -/
def astcVoid (v : Nat) : List Nat :=
  let f (o : Nat) : Nat := bitsAt v o 13
  let all := bitsAt v 12 52 = 2 ^ 52 - 1
  if bitsAt v 9 1 = 1 || bitsAt v 10 2 ≠ 3 || !(all || (f 12 < f 25 && f 38 < f 51)) then astcError
  else (List.range 4).map fun c => bitsAt v (72 + 16 * c) 8

/-- A texel of an ASTC block with a footprint of bw by bh. -/
def astcTexel (bw bh v x y : Nat) : List Nat :=
  if v % 512 = 0x1FC then astcVoid v
  else
    match astcMode (v % 2048) with
    | none => astcError
    | some m =>
      let planes := if m.dual then 2 else 1
      let n := m.w * m.h * planes
      let wb := iseBits m.level n
      let parts := bitsAt v 11 2 + 1
      let e := bitsAt v 23 6
      let extra := if parts = 1 || e % 4 = 0 then 0 else 3 * parts - 4
      let top := 128 - wb - extra
      let cems : List Nat :=
        if parts = 1 then [bitsAt v 13 4]
        else if e % 4 = 0 then List.replicate parts (e / 4)
        else
          let e := e + bitsAt v top extra * 64
          (List.range parts).map fun k => (bitsAt e (2 + k) 1 + e % 4 - 1) * 4 + bitsAt e (2 + parts + 2 * k) 2
      let count (l : List Nat) : Nat := (l.map fun c => c / 4 * 2 + 2).sum
      let start := if parts = 1 then 17 else 29
      let level := ((List.range 21).reverse.find? fun l =>
        iseBits l (count cems) ≤ 128 - start - wb - extra - (if m.dual then 2 else 0)).getD 0
      if bw < m.w || bh < m.h || 64 < n || wb < 24 || 96 < wb || (m.dual && parts = 4) || 18 < count cems
          || level < 4 then
        astcError
      else
        let part := if parts = 1 then 0 else astcPartition (bitsAt v 13 10) parts (bw * bh) x y
        let colours := bitsAt v start (iseBits level (count cems))
        let first := count (cems.take part)
        match astcEnds (cems.getD part 0) fun i => astcColour level (iseValue level colours (first + i)) with
        | none => astcError
        | some (e0, e1) =>
          let rev := (List.range wb).foldl (fun a i => a + bitsAt v (127 - i) 1 * 2 ^ i) 0
          let weight (p : Nat) : Nat :=
            astcInfill bw bh m.w m.h (fun i => astcWeight m.level (iseValue m.level rev (planes * i + p))) x y
          let second := if m.dual then bitsAt v (top - 2) 2 else 4
          (List.range 4).map fun c =>
            let w := weight (if c = second then 1 else 0)
            ((64 - w) * (e0.getD c 0 * 257) + w * (e1.getD c 0 * 257) + 32) / 64 / 256

/-! ### Texels -/

/-- Channels c0 to c3 of 8 bits as values. -/
def unorm (l : List Nat) : List XV := l.map fun c => .fin false c 255

/-- R, G, B, A of a texel from its block's bytes. -/
def texelOf (f v x y : Nat) : List XV :=
  let z := XV.zero
  let one := XV.ofInt 1
  let c8 (i : Nat) : Nat := v / 2 ^ (8 * i) % 256
  let hi := v / 2 ^ 64
  match f with
  | 0 => unorm ((List.range 4).map c8)
  | 1 => unorm [c8 0, c8 1] ++ [z, one]
  | 2 => unorm [c8 0] ++ [z, z, one]
  | 3 => (List.range 4).map fun i => decodeTag 2 (v / 2 ^ (16 * i) % 2 ^ 16)
  | 4 => [decodeTag 2 v, z, z, one]
  | 5 => (List.range 4).map fun i => decodeTag 1 (v / 2 ^ (32 * i) % 2 ^ 32)
  | 8 => unorm (bcColour false v x y)
  | 9 => unorm ((bcColour true hi x y).take 3 ++ [v / 2 ^ (4 * (4 * y + x)) % 16 * 17])
  | 10 => unorm ((bcColour true hi x y).take 3 ++ [bcChannel v x y])
  | 11 => unorm [bcChannel v x y] ++ [z, z, one]
  | 12 => unorm [bcChannel v x y, bcChannel hi x y] ++ [z, one]
  | 13 => unorm (bc7Texel v x y)
  | _ => unorm (astcTexel (texBlock f).1 (texBlock f).2.1 v x y)

end Sys2Proof.Machine
end

