-- ==== Sys2Proof/Machine/Shader.lean ====
section
/-! DEFINITION. The shader forms: texture filtering and the ray tests (R330 to R336, R358 to R361). -/

namespace Sys2Proof.Machine

/-! ### Operand runs (R358) -/

/-- A run of n groups of g registers from r: within v31, at a multiple of its group size. -/
def runOk (r : RegNo) (g n : Nat) : Bool := aligned r g && r.toNat + g * n ≤ 32

/-- Register k·g past r. -/
def runReg (r : RegNo) (g k : Nat) : RegNo := r + BitVec.ofNat 5 (g * k)

/-- The elements of a shader form: results of element i in the result groups, in ascending order with restart (R358).
`dst` lists the result groups' first registers and tags, `g` their size. -/
def State.shaderRun (s : State) (dst : List (RegNo × Nat)) (g : Nat) (m : RegNo)
    (f : Nat → State → Res (List Nat)) : Out :=
  let s0 := dst.foldl (fun s d => s.setTag d.1 g d.2) s
  let act := (s.actives m).filter fun i => s.startElem ≤ i
  let prog (p : Option Nat) (q : State) : State := dst.foldl (fun q d => q.setProg d.1 g s.ew p) q
  (s0.eachElem (fun i q => prog (some i) q)
    (fun i q => (f i q).bind fun l q => .ok () ((dst.zip l).foldl (fun q d => q.setElem d.1.1 s.ew i d.2) q)) act).out
    fun _ q => .next (prog none q)

/-! ### Texture objects (R330) -/

/-- A texture binding: the descriptor's first two words and the sampler's. -/
structure TexBinding where
  t0 : Dword
  t1 : Dword
  s0 : Dword
  s1 : Dword
deriving DecidableEq, Repr

def TexBinding.ofNat (v : Nat) : TexBinding :=
  let w (i : Nat) : Dword := BitVec.ofNat 64 (v / 2 ^ (64 * i))
  { t0 := w 0, t1 := w 1, s0 := w 4, s1 := w 5 }

def TexBinding.base (b : TexBinding) : Nat := b.t0.toNat
def TexBinding.fmt (b : TexBinding) : Nat := (fld b.t1 35 6).toNat
/-- LEVELS: the highest level. -/
def TexBinding.levels (b : TexBinding) : Nat := (fld b.t1 30 5).toNat
def TexBinding.h0 (b : TexBinding) : Nat := (fld b.t1 15 15).toNat + 1
def TexBinding.w0 (b : TexBinding) : Nat := (fld b.t1 0 15).toNat + 1
def TexBinding.maxLod (b : TexBinding) : Int := (fld b.s0 48 16).toNat
def TexBinding.minLod (b : TexBinding) : Int := (fld b.s0 32 16).toNat
def TexBinding.bias (b : TexBinding) : Int := (fld b.s0 16 16).toInt
def TexBinding.addrV (b : TexBinding) : Nat := (fld b.s0 9 2).toNat
def TexBinding.addrU (b : TexBinding) : Nat := (fld b.s0 7 2).toNat
def TexBinding.aniso (b : TexBinding) : Nat := (fld b.s0 2 5).toNat
def TexBinding.filter (b : TexBinding) : Nat := (fld b.s0 0 2).toNat
/-- OUT as a tag. -/
def TexBinding.out (b : TexBinding) : Nat :=
  match (fld b.s1 0 2).toNat with
  | 0 => 1
  | 1 => 2
  | _ => 19

/-- A binding that is not refused. -/
def TexBinding.ok (b : TexBinding) : Bool :=
  let f := b.fmt
  (f ≤ 5 || (8 ≤ f && f ≤ 13) || (16 ≤ f && f ≤ 29)) && fld b.t0 0 8 = 0 && fld b.t1 41 23 = 0 && b.levels ≤ 15
    && fld b.s0 11 5 = 0 && 1 ≤ b.aniso && b.aniso ≤ 16 && fld b.s1 0 2 ≠ 3

def TexBinding.w (b : TexBinding) (l : Nat) : Nat := max 1 (b.w0 / 2 ^ l)
def TexBinding.h (b : TexBinding) (l : Nat) : Nat := max 1 (b.h0 / 2 ^ l)

/-- Bytes of a row of texels or blocks, padded to 64. -/
def TexBinding.rowBytes (b : TexBinding) (l : Nat) : Nat :=
  let (bw, _, z) := texBlock b.fmt
  ((b.w l + bw - 1) / bw * z + 63) / 64 * 64

/-- The address of a level. -/
def TexBinding.levelAddr (b : TexBinding) : Nat → Nat
  | 0 => b.base
  | l + 1 =>
    let (_, bh, _) := texBlock b.fmt
    (b.levelAddr l + (b.h l + bh - 1) / bh * b.rowBytes l + 255) / 256 * 256

/-! ### Texels (R330, R332) -/

/-- A texel of a level, inside it. -/
def State.texel (s : State) (c : Ctx) (b : TexBinding) (l i j : Nat) : Res (List XV) :=
  let (bw, bh, z) := texBlock b.fmt
  let a := b.levelAddr l + j / bh * b.rowBytes l + i / bw * z
  (s.load c (BitVec.ofNat 64 a) z z).bind fun v s => .ok (texelOf b.fmt v (i % bw) (j % bh)) s

/-- An index mapped by an addressing mode (R332): none is the border. -/
def texIndex (mode : Nat) (i : Int) (w : Nat) : Option Nat :=
  match mode with
  | 0 => some (i % w).toNat
  | 1 => some (min (max i 0) ((w : Int) - 1)).toNat
  | 2 =>
    let k := (i % (2 * w)).toNat
    some (if k < w then k else 2 * w - 1 - k)
  | _ => if 0 ≤ i && i < w then some i.toNat else none

def blackTexel : List XV := List.replicate 4 XV.zero

/-- The texel that an index pair names under the sampler's modes. -/
def State.texelAt (s : State) (c : Ctx) (b : TexBinding) (l : Nat) (i j : Int) : Res (List XV) :=
  match texIndex b.addrU i (b.w l), texIndex b.addrV j (b.h l) with
  | some x, some y => s.texel c b l x y
  | _, _ => .ok blackTexel s

/-- Channel by channel a + w·t. -/
def addTexel (a : List XV) (w : Nat) (t : List XV) : List XV :=
  List.zipWith (fun x y => (XV.add false x (XV.mul (XV.ofInt w) y).val).val) a t

/-- S of a tap at (u, v) on a level, with weight `k` added to a sum (R332). -/
def State.tap (s : State) (c : Ctx) (b : TexBinding) (l : Nat) (u v : XV) : Res (List XV) :=
  let at_ (x : XV) (n : Nat) (sub : Int) : Int :=
    unitsRne (XV.add false (XV.mul x (XV.ofInt (n * 256))).val (XV.ofInt sub)).val 0
  if b.filter = 0 then
    (s.texelAt c b l (at_ u (b.w l) 0 / 256) (at_ v (b.h l) 0 / 256)).bind fun t s =>
      .ok (addTexel blackTexel 65536 t) s
  else
    let x := at_ u (b.w l) (-128)
    let y := at_ v (b.h l) (-128)
    let i := x / 256
    let j := y / 256
    let fx := (x % 256).toNat
    let fy := (y % 256).toNat
    (s.texelAt c b l i j).bind fun t00 s => (s.texelAt c b l (i + 1) j).bind fun t10 s =>
      (s.texelAt c b l i (j + 1)).bind fun t01 s => (s.texelAt c b l (i + 1) (j + 1)).bind fun t11 s =>
        .ok (addTexel (addTexel (addTexel (addTexel blackTexel ((256 - fx) * (256 - fy)) t00) (fx * (256 - fy)) t10)
          ((256 - fx) * fy) t01) (fx * fy) t11) s

/-- A filtered channel in the output format (R333): the rounded value is 255·F for n8. -/
def texOut (out : Nat) (x : XV) : Nat :=
  (roundTo out .rne false (if out = 19 then (XV.mul (XV.ofInt 255) x).val else x) 0).code

/-- A channel of tex.fetch in the output format: round_to of the value itself, for n8 too (R333). -/
def fetchOut (out : Nat) (x : XV) : Nat := (roundTo out .rne false x 0).code

/-- The level from a biased and clamped λ8, and the weight of the next one where that is read too (R331). -/
def TexBinding.level (b : TexBinding) (lam : Int) : Nat × Option Nat :=
  let k := (min (max (lam + b.bias) b.minLod) b.maxLod).toNat
  let l := min (k / 256) b.levels
  (l, if l = b.levels || b.filter < 2 then none else some (k % 256))

/-- The sum over taps of both levels (R333): `taps` are the points. -/
def State.taps (c : Ctx) (b : TexBinding) (l : Nat) (fl : Option Nat) :
    List (XV × XV) → List XV → State → Res (List XV)
  | [], a, s => .ok a s
  | (u, v) :: r, a, s =>
    (s.tap c b l u v).bind fun t s =>
      match fl with
      | none => State.taps c b l fl r (addTexel a 256 t) s
      | some k =>
        (s.tap c b (l + 1) u v).bind fun t' s => State.taps c b l fl r (addTexel (addTexel a (256 - k) t) k t') s

/-- The filtered value of a sample with N taps. -/
def State.filtered (s : State) (c : Ctx) (b : TexBinding) (lam : Int) (taps : List (XV × XV)) : Res (List Nat) :=
  let (l, fl) := b.level lam
  (State.taps c b l fl taps blackTexel s).bind fun a s =>
    .ok (a.map fun x => texOut b.out ((XV.div x (XV.ofInt taps.length)).val.scale (-24))) s

/-- N, λ8 and the axis of the taps from the gradients (R331). -/
def TexBinding.gradient (b : TexBinding) (ux vx uy vy : XV) : Nat × Int × Bool :=
  let q (x : XV) (n : Nat) : XV := (XV.mul x.abs (XV.ofInt n)).val
  let big (x y : XV) : XV := if x.lt y then y else x
  let rx := big (q ux b.w0) (q vx b.h0)
  let ry := big (q uy b.w0) (q vy b.h0)
  let useX := ry.le rx
  let mx := if useX then rx else ry
  let mn := if useX then ry else rx
  let n :=
    if b.filter ≠ 3 then 1
    else if mn.isZero then b.aniso
    else
      let r := (XV.div mx mn).val
      min b.aniso ((r.num.toNat + r.den - 1) / r.den)
  let lam : Int :=
    if mx.isZero then -(2 ^ 31)
    else
      let r := (XV.div mx (XV.ofInt n)).val
      ilog2 (r.num.natAbs ^ 256) (r.den ^ 256)
  (n, lam, useX)

/-- The points of N taps along an axis (R331). -/
def tapPoints (n : Nat) (u v du dv : XV) : List (XV × XV) :=
  (List.range n).map fun (t : Nat) =>
    let k := (XV.div (XV.ofInt (2 * (t : Int) + 1 - n)) (XV.ofInt (2 * (n : Int)))).val
    ((XV.add false u (XV.mul k du).val).val, (XV.add false v (XV.mul k dv).val).val)

def XV.finite (x : XV) : Bool := !x.isNan && !x.isInf

/-! ### Texture forms (R359, R360) -/

/-- The tags of the coordinate groups: 0 smp, 1 grad, 2 fetch. -/
def texTags (form : Nat) : List Nat :=
  match form with
  | 0 => [1, 1, 14]
  | 1 => [1, 1, 1, 1, 1, 1]
  | _ => [14, 14, 14]

/-- One element of a texture form: the codes of R, G, B and A. `x` are the coordinates' codes. -/
def State.texElem (s : State) (c : Ctx) (b : TexBinding) (form : Nat) (x : List Nat) : Res (List Nat) :=
  let f (k : Nat) : XV := decodeTag 1 (x.getD k 0)
  let i (k : Nat) : Int := signedOf 32 (x.getD k 0)
  let free : Res (List Nat) :=
    .ok ((List.range 4).map fun k => (Config.texResult (s.drawn + k)).toNat % 2 ^ tagMem b.out)
      { s with drawn := s.drawn + 4 }
  match form with
  | 0 => if (f 0).finite && (f 1).finite then s.filtered c b (i 2) [(f 0, f 1)] else free
  | 1 =>
    if ((List.range 6).all fun k => (f k).finite) then
      let (n, lam, useX) := b.gradient (f 2) (f 3) (f 4) (f 5)
      s.filtered c b lam (tapPoints n (f 0) (f 1) (if useX then f 2 else f 4) (if useX then f 3 else f 5))
    else free
  | _ =>
    let l := i 2
    if 0 ≤ l && l ≤ b.levels && 0 ≤ i 0 && i 0 < b.w l.toNat && 0 ≤ i 1 && i 1 < b.h l.toNat then
      (s.texel c b l.toNat (i 0).toNat (i 1).toNat).bind fun t s => .ok (t.map (fetchOut b.out)) s
    else .ok (blackTexel.map (fetchOut b.out)) s

/-- A texture form: the binding is read once, before the first element, and held while the form waits for a line (R360), the
elements act in ascending order and a trap leaves the element that it was at, so that only the outcomes that R363 allows are
formed; a form that resumes after a trap reads the binding again (log 90). -/
def State.texForm (s : State) (form : Nat) (d a t m : RegNo) : Out :=
  let w := s.ew
  let g := s.gN
  let gc := g * 32 / w
  let tags := texTags form
  let n := tags.length
  let coord (k : Nat) : RegNo := runReg a gc k
  s.vgate [t]
    ((w = 8 || w = 16 || w = 32) && 1 ≤ gc && gc ≤ 8 && runOk a gc n && runOk d g 4 && s.maskOk m
      && !overlaps d (4 * g) a (n * gc))
    ((List.range n).all fun k => s.vtag (coord k) = tags.getD k 0) true
    ((List.range n).all (fun k => s.readableAs (coord k) gc 32 s.vlN) && (m = 0 || s.readable m s.vlN)
      && (List.range 4).all fun k => s.writable (runReg d g k) s.vlN)
    (let run (v : Nat) (s : State) : Out :=
      let b := TexBinding.ofNat v
      if !b.ok || tagMem b.out ≠ w then s.illegal
      else
        s.shaderRun ((List.range 4).map fun k => (runReg d g k, b.out)) g m fun i q =>
          q.texElem q.ctx b form ((List.range n).map fun k => q.elem (coord k) 32 i)
     match s.slot.block with
     | some v => run v.toNat s
     | none =>
      (s.loadWide s.ctx (s.getX t) 16 16 48).out fun v s =>
        run v (s.upd fun q => { q with block := some (BitVec.ofNat 1024 v) }))

def execTexSmp (d a t m : RegNo) (s : State) : Out := s.texForm 0 d a t m
def execTexGrad (d a t m : RegNo) (s : State) : Out := s.texForm 1 d a t m
def execTexFetch (d a t m : RegNo) (s : State) : Out := s.texForm 2 d a t m

/-! ### Ray tests (R335, R336, R361) -/

/-- A ray: origin, direction, interval. -/
structure Ray where
  o : List XV
  d : List XV
  tmin : XV
  tmax : XV

def State.rayOf (s : State) (a : RegNo) (g i : Nat) : Ray :=
  let f (k : Nat) : XV := decodeTag 1 (s.elem (runReg a g k) 32 i)
  { o := [f 0, f 1, f 2], d := [f 3, f 4, f 5], tmin := f 6, tmax := f 7 }

def Ray.inputs (r : Ray) : List XV := r.o ++ r.d ++ [r.tmin, r.tmax]

/-- A value rounded to f32 in a direction. -/
def f32Dir (m : RMode) (x : XV) : XV := decodeTag 1 (roundTo 1 m false x 0).code

/-- A zero without its sign: an exact value has none. -/
def plusZero (x : XV) : XV := if x.isZero then .zero else x

/-- The quotient of a slab: a NaN where infinities leave it without a value. -/
def slabTime (o d x : XV) : XV := plusZero (XV.div (XV.sub false x o).val d).val

/-- A slab of the axis has no value: only with infinite inputs. -/
def slabOpen (o d lo hi : XV) : Bool := !d.isZero && ((slabTime o d lo).isNan || (slabTime o d hi).isNan)

/-- The slab times of one axis, rounded outward; none is a miss. -/
def slab (o d lo hi : XV) : Option (XV × XV) :=
  if d.isZero then (if lo.le o && o.le hi then some (.inf true, .inf false) else none)
  else
    let a := slabTime o d lo
    let b := slabTime o d hi
    if b.lt a then some (f32Dir .rdn b, f32Dir .rup a) else some (f32Dir .rdn a, f32Dir .rup b)

/-- tnear of a box, where it is hit. Where a slab has no value, the free word `w` decides: a NaN is a miss. -/
def Ray.box (r : Ray) (lo hi : List XV) (w : BitVec 32) : Option XV :=
  let ts := (List.range 3).map fun k =>
    slab (r.o.getD k .zero) (r.d.getD k .zero) (lo.getD k .zero) (hi.getD k .zero)
  if (r.inputs ++ lo ++ hi).any XV.isNan || ts.any Option.isNone then none
  else if (List.range 3).any fun k =>
      slabOpen (r.o.getD k .zero) (r.d.getD k .zero) (lo.getD k .zero) (hi.getD k .zero) then
    let x := decodeTag 1 w.toNat
    if x.isNan then none else some x
  else
    let near := ts.foldl (fun a t => (XV.maxNum a (t.elim a Prod.fst)).val) r.tmin
    let far := ts.foldl (fun a t => (XV.minNum a (t.elim a Prod.snd)).val) r.tmax
    if near.le far then some near else none

/-- Child j's box of a node (R337, R361). -/
def nodeBox (v j : Nat) : List XV × List XV :=
  let byte (i : Nat) : Nat := v / 2 ^ (8 * i) % 256
  let corner (hiSide : Bool) (a : Nat) : XV :=
    let o := decodeTag 1 (v / 2 ^ (32 * a) % 2 ^ 32)
    let e := signedOf 8 (byte (12 + a))
    (XV.add false o (XV.scaled false (byte (32 + 8 * (a + if hiSide then 3 else 0) + j)) 1 e)).val
  ((List.range 3).map (corner false), (List.range 3).map (corner true))

/-- The results of rbox for a node, with the free words of its children. -/
def Ray.node (r : Ray) (v : Nat) (fr : Nat → BitVec 32) : List Nat :=
  let n := min 8 (v / 2 ^ 120 % 256)
  let hits := (List.range n).filterMap fun j => (r.box (nodeBox v j).1 (nodeBox v j).2 (fr j)).map fun t => (j, t)
  let mask := hits.foldl (fun m h => m + 2 ^ h.1) 0
  match hits with
  | [] => [15 * 256, 0x7F800000]
  | h :: rest =>
    let b := rest.foldl (fun b h => if h.2.lt b.2 then h else b) h
    [mask + b.1 * 256, (roundTo 1 .rne false b.2 0).code]

def xvSub (a b : XV) : XV := (XV.sub false a b).val
def xvMul (a b : XV) : XV := (XV.mul a b).val
def vSub (a b : List XV) : List XV := List.zipWith xvSub a b
def vCross (a b : List XV) : List XV :=
  let g (l : List XV) (k : Nat) : XV := l.getD (k % 3) .zero
  (List.range 3).map fun k => xvSub (xvMul (g a (k + 1)) (g b (k + 2))) (xvMul (g a (k + 2)) (g b (k + 1)))
def vDot (a b : List XV) : XV := (List.zipWith xvMul a b).foldl (fun s x => (XV.add false s x).val) .zero

/-- The sign of an exact value: -1, 0 or 1. -/
def xvSign (x : XV) : Int := if x.isZero then 0 else if x.neg? then -1 else 1

/-- The sign of an edge value, with the tie of R336 for edge a→b. -/
def edgeSign (u : XV) (a b d : List XV) : Int :=
  if u.isZero then -(((vCross (vSub b a) d).map xvSign).find? (· ≠ 0)).getD 0 else xvSign u

/-- The results of rtri for a triangle. Infinite coordinates leave the exact values without meaning: the free words `fr`
decide. -/
def Ray.tri (r : Ray) (v0 v1 v2 : List XV) (fr : Nat → BitVec 32) : List Nat :=
  let miss := [0, 0x7F800000, 0, 0]
  let xs := r.o ++ r.d ++ v0 ++ v1 ++ v2
  if (r.tmin :: r.tmax :: xs).any XV.isNan then miss
  else if !xs.all XV.finite then
    if (fr 0).getLsbD 0 then [1, (fr 1).toNat, (fr 2).toNat, (fr 3).toNat] else miss
  else
    let p0 := vSub v0 r.o
    let p1 := vSub v1 r.o
    let p2 := vSub v2 r.o
    let u := vDot (vCross p1 p2) r.d
    let v := vDot (vCross p2 p0) r.d
    let w := vDot (vCross p0 p1) r.d
    let det := (XV.add false (XV.add false u v).val w).val
    let t := (XV.div (vDot p0 (vCross (vSub v1 v0) (vSub v2 v0))) det).val
    let k := xvSign det
    if !det.isZero && edgeSign u v1 v2 r.d = k && edgeSign v v2 v0 r.d = k && edgeSign w v0 v1 r.d = k
        && r.tmin.le t && t.le r.tmax then
      let out (x : XV) : Nat := (roundTo 1 .rne false (plusZero x) 0).code
      [1, out t, out (XV.div v det).val, out (XV.div w det).val]
    else miss

/-- rbox and rtri: the ray at vR, the addresses at vA, n result groups, a block of `len` bytes aligned to `al`. -/
def State.rayForm (s : State) (d a b m : RegNo) (n al p len : Nat)
    (f : Ray → Nat → (Nat → BitVec 32) → List Nat) : Out :=
  let g := s.gN
  s.vgate []
    (s.ew = 32 && runOk a g 8 && runOk b (2 * g) 1 && runOk d g n && s.maskOk m && !overlaps d (n * g) a (8 * g)
      && !overlaps d (n * g) b (2 * g) && !overlaps a (8 * g) b (2 * g))
    ((List.range 8).all fun k => s.vtag (runReg a g k) = 1) true
    ((List.range 8).all (fun k => s.readable (runReg a g k) s.vlN) && s.readableAs b (2 * g) 64 s.vlN
      && (m = 0 || s.readable m s.vlN) && (List.range n).all fun k => s.writable (runReg d g k) s.vlN)
    (s.shaderRun ((List.range n).map fun k => (runReg d g k, if k = 0 then 14 else 1)) g m fun i q =>
      (q.loadWide q.ctx (BitVec.ofNat 64 (q.elem b 64 i)) al p len).bind fun v q =>
        .ok (f (q.rayOf a g i) v fun k => Config.rayResult (q.drawn + k)) { q with drawn := q.drawn + 8 })

def execRbox (d a b m : RegNo) (s : State) : Out := s.rayForm d a b m 2 128 64 128 Ray.node

def execRtri (d a b m : RegNo) (s : State) : Out :=
  s.rayForm d a b m 4 4 4 36 fun r v fr =>
    let f (k : Nat) : XV := decodeTag 1 (v / 2 ^ (32 * k) % 2 ^ 32)
    r.tri [f 0, f 1, f 2] [f 3, f 4, f 5] [f 6, f 7, f 8] fr

end Sys2Proof.Machine
end

