-- ==== Sys2Proof/Machine/System.lean ====
section
/-! DEFINITION. Control registers, the modifier prefix, traps and their delivery, the command registers, translation events
(R12 to R21, R30, R85 to R87, R112 to R115, R170 to R172, R191, R208 to R210, R373 to R393). -/

namespace Sys2Proof.Machine

/-! ### The control-register map (R12) -/

/-- STATUS (R13). -/
def Slot.status (t : Slot) : Dword := BitVec.ofNat 64 (t.mode.toNat * 16 + b2n t.loop * 64 + b2n t.lm * 128)

/-- VTYPE (R14). -/
def Slot.vtype (t : Slot) : Dword :=
  BitVec.ofNat 64 (t.vew.toNat + t.vgrp.toNat * 8 + t.vreq.toNat * 256 + b2n t.vill * 2 ^ 15)

/-- CMFREE: the free sectors of the core's panel store (R209). -/
def State.cmfree (s : State) : Dword :=
  BitVec.ofNat 64 (65536 - panelUsed s.mem (keyCmem (clusOfCore s.coreNo) (inClus s.coreNo / 16 * 2 ^ 22)))

/-- The value that a control register reads as; a command register reads 0 (R12, R113). -/
def State.crRead (s : State) (n : Nat) : Dword :=
  let t := s.slot
  if 0x10 ≤ n && n ≤ 0x1F then t.wfmt.toList.getD (n - 0x10) 0
  else if 0x50 ≤ n && n ≤ 0x55 then t.lcnt.toList.getD (n - 0x50) 0
  else if 0x58 ≤ n && n ≤ 0x5D then t.lstr.toList.getD (n - 0x58) 0
  else match n with
    | 0x00 => t.status
    | 0x01 => t.vtype
    | 0x02 => t.vl.setWidth 64
    | 0x03 => s.core.lanes.setWidth 64
    | 0x04 => t.footh.setWidth 64
    | 0x05 => s.cmfree
    | 0x20 => t.fflags.setWidth 64
    | 0x21 => t.frm.setWidth 64
    | 0x22 => t.srseed
    | 0x23 => t.flags.setWidth 64
    | 0x30 => BitVec.ofNat 64 s.core.clkts
    | 0x31 => t.tasklim.setWidth 64
    | 0x32 => (fld s.slotNo 0 3).setWidth 64
    | 0x33 => s.coreNo.setWidth 64
    | 0x34 => t.tinfo
    | 0x35 => t.tkey
    | 0x36 => t.team
    | 0x37 => t.taskcyc
    | 0x40 => t.epc.setWidth 64
    | 0x41 => t.tcause
    | 0x42 => t.tval
    | 0x43 => t.tvec
    | 0x44 => t.txval
    | 0x60 => t.lfirst
    | 0x61 => t.llast
    | 0x62 => t.lctl
    | 0x80 => (s.die s.dieNo).pwr
    | _ => 0

/-- RO in every mode (R12, R170, R208, R209, R451). -/
def crReadOnly (n : Nat) : Bool :=
  n = 1 || n = 2 || n = 5 || n = 0x30 || (0x32 ≤ n && n ≤ 0x37) || n = 0x80

/-- Not writable from user mode (R12). -/
def crPrivileged (n : Nat) : Bool := n = 3 || n = 0x31 || (0x40 ≤ n && n ≤ 0x44) || (0x70 ≤ n && n ≤ 0x73)

/-- Sequencer registers, not writable while LOOP is 1 (R115). -/
def crSequencer (n : Nat) : Bool := (0x50 ≤ n && n ≤ 0x55) || (0x58 ≤ n && n ≤ 0x5D) || (0x60 ≤ n && n ≤ 0x62)

/-- FRES, RCTL, QSAVE, TLBINV. -/
def crCommand (n : Nat) : Bool := 0x70 ≤ n && n ≤ 0x73

/-- A write of the register traps ILLEGAL whatever is written (R113, R115). -/
def Slot.crLocked (t : Slot) (n : Nat) : Bool :=
  crReadOnly n || (crPrivileged n && t.mode = 0) || (crSequencer n && t.loop)

/-- Every finite value of STORE is a value of VIEW (R210). The formats above 8 bits are decided by their ranges. -/
def wfmtExact (st vt : Nat) : Bool :=
  st = vt
    || (if 8 < tagMem st then [(1, 0), (2, 0), (2, 1), (3, 0), (3, 1), (14, 13), (14, 0), (15, 13), (15, 14), (15, 0), (15, 1)].contains (st, vt)
        else (List.range (2 ^ tagMem st)).all fun c =>
          let x := decodeTag st c
          x.isNan || x.isInf || (decodeTag vt (roundTo vt .rne false x 0).code).eq x)

/-- A window format that is not refused (R210). -/
def wfmtOk (w : Dword) : Bool :=
  let st := wfmtStore w
  let vt := wfmtView w
  wfmtOrigin w < 0x30000
    && (match wfmtKind w with
      | 0 => vt = 0 && st = 0
      | 1 => st < 22 && 8 ≤ tagReg vt && wfmtExact st vt
      | 2 => st < 22 && vt = 0
      | _ => false)


/-! ### VLMAXP (R17) -/

/-- A slot after a change of the active lanes. -/
def Slot.toLanes (t : Slot) (l : Nat) : Slot :=
  { t with
    v := t.v.map fun r => { r with data := BitVec.ofNat 2048 (r.data.toNat % 2 ^ (256 * l)) }
    vl := BitVec.ofNat 15 (min t.vl.toNat (256 * l * t.g / t.ewBits)) }

/-- A change of L: lanes are gated with their slices, and VL is limited in every slot of the core. -/
def State.setLanes (s : State) (c : CoreNo) (l : Nat) : State :=
  let old := (s.getCore c).lanes.toNat
  if l = old then s
  else
    let gated (k : Host.Cell) : Bool := keyLane c l 0 ≤ k.1 && k.1 < keyLane c 8 0
    let mine (p : Nat × Slot) : Nat × Slot := if coreOf (BitVec.ofNat 16 p.1) = c then (p.1, p.2.toLanes l) else p
    let s' : State :=
      { s with
        mem := if l < old then s.mem.filter (fun k => !gated k) else s.mem
        slot := if coreOf s.slotNo = c then s.slot.toLanes l else s.slot
        others := s.others.map mine }
    s'.modCore c fun k => { k with lanes := BitVec.ofNat 4 l }

/-- A word of an instruction that reads or writes a vector register through the slot's vector queues (R65): the vector form of
STQ (R245) and vrred are two of them. -/
def vectorWord (w : BitVec 32) : Bool :=
  let major := (fld w 26 6).toNat
  (0x18 ≤ major && major ≤ 0x1F) || (0x30 ≤ major && major ≤ 0x33)
    || (match decode w with
      | some (.stqV ..) | some (.vrred ..) => true
      | _ => false)

/-- A vector instruction that a slot of the core has taken still waits to run, by itself or as the second word of a pair, or
a stream load of the core still writes its group (log 50). -/
def State.vectorsQueued (s : State) (c : CoreNo) : Bool :=
  (s.allSlots.any fun p => coreOf p.1 = c && p.2.hold && (vectorWord p.2.ir || vectorWord p.2.pfx))
    || s.cmds.any fun m => coreOf m.slot = c && m.eng = 2 && !m.stopped && !m.finished

def lanesOk (v : Nat) : Bool := v = 1 || v = 2 || v = 4 || v = 8

/-- A change of a core's active lanes waits until the vector queues of its slots are empty. -/
def State.lanesHeld (s : State) (c : CoreNo) (l : Nat) : Bool :=
  lanesOk l && (s.getCore c).lanes.toNat ≠ l && s.vectorsQueued c

/-- VLMAXP_WRITE: it waits as the rule says. -/
def execVlmaxpWrite (s : State) : Out :=
  if !lanesOk s.arg.t then .fault .noObject
  else .next (if s.lanesHeld s.arg.core s.arg.t then s.post .vlmaxpWrite s.arg else s.setLanes s.arg.core s.arg.t)

/-! ### Plain writes (R113) -/

/-- A write with the register's own value rules: none where it traps ILLEGAL. -/
def State.crPut (s : State) (n : Nat) (v : Dword) : Option State :=
  let set (f : Slot → Slot) : Option State := some (s.upd f)
  if n = 0x10 then some s
  else if 0x10 < n && n ≤ 0x1F then
    let w := v &&& 0x000003FFFF03FF03
    if wfmtOk w then set fun t => { t with wfmt := t.wfmt.setIfInBounds (n - 0x10) w } else none
  else if 0x50 ≤ n && n ≤ 0x55 then
    set fun t => { t with lcnt := t.lcnt.setIfInBounds (n - 0x50) (v &&& 0x0000FFFF0000FFFF) }
  else if 0x58 ≤ n && n ≤ 0x5D then
    set fun t => { t with lstr := t.lstr.setIfInBounds (n - 0x58) (v &&& 0x00FFFFFFFFFFFFFF) }
  else match n with
    | 0x00 => set fun t => { t with lm := v.getLsbD 7 }
    | 0x03 => if lanesOk (fld v 0 4).toNat then some (s.setLanes s.coreNo (fld v 0 4).toNat) else none
    | 0x04 => set fun t => { t with footh := fld v 0 32 }
    | 0x20 => set fun t => { t with fflags := fld v 0 5 }
    | 0x21 => set fun t => { t with frm := fld v 0 3 }
    | 0x22 => set fun t => { t with srseed := v }
    | 0x23 => set fun t => { t with flags := fld v 0 3 }
    | 0x31 => set fun t => { t with tasklim := fld v 0 48 }
    | 0x40 => set fun t => { t with epc := fld v 0 56 }
    | 0x41 => set fun t => { t with tcause := v &&& 0xFFC0FFFFF000FFFF }
    | 0x42 => set fun t => { t with tval := v }
    | 0x43 => set fun t => { t with tvec := v &&& 0x00FFFFFFFFFFFFFD }
    | 0x44 => set fun t => { t with txval := v }
    | 0x60 => set fun t => { t with lfirst := v }
    | 0x61 => set fun t => { t with llast := v }
    | 0x62 => set fun t => { t with lctl := v &&& 0x77F }
    | _ => some s

/-! ### Stopping work (R389) -/

/-- The slot leaves the order of every queue (R191). -/
def State.withdraw (s : State) (n : SlotNo) : State :=
  { s with queues := s.queues.map fun k => { k with waiters := k.waiters.filter fun w => w ≠ .slot n } }

/-- Steps 2 to 4 of R389 for one slot. -/
def State.abortSlot (s : State) (n : SlotNo) : State :=
  if (s.getSlot n).st = .free then s else (((s.releaseLinksOf n).withdraw n).stopCmds n).freeSlot n

/-- The slots that a task's kill aborts: all of its team's. -/
def State.killSet (s : State) (n : SlotNo) : List SlotNo :=
  match s.teamOf n (s.getSlot n) with
  | some k => k.slots
  | none => [n]

/-- The slot that a RESUME entry is for (R167): none where its team is gone. -/
def State.resumeSlot (s : State) (d : DieNo) (r : Rec) : Option SlotNo :=
  (s.teams.find? fun t => t.die = d && t.clus = fld r.fp 24 2 && t.ctx = fld r.fp 8 8).bind fun t =>
    t.slots[(fld r.fp 0 8).toNat]?

/-- A RESUME entry of a die whose team is gone. -/
def State.deadEntry (s : State) (d : DieNo) (e : Rec) : Bool := e.resume && (s.resumeSlot d e).isNone

/-- The RESUME entries of a die whose teams are gone are discarded without a grant (R167). -/
def State.dropDead (s : State) (d : DieNo) : State :=
  { s with queues := s.queues.map fun k =>
      if queueDie k.num = d then { k with entries := k.entries.filter fun e => !s.deadEntry d e } else k }

/-- Steps 2 to 4 of R389 for the tasks of slots, each with its team; the successors of a team's members go with it (R167), and
the slots become FREE together (R180). -/
def State.killTasks (s : State) (ns : List SlotNo) : State :=
  let all := inTurnOrder (ns.flatMap s.killSet).eraseDups
  let s := { s with teams := s.teams.filter fun k => !ns.any fun n => k.slots.contains n }
  all.foldl State.abortSlot ((ns.map dieOf).eraseDups.foldl State.dropDead s)

/-- The kill of one task or one team. -/
def State.killTask (s : State) (n : SlotNo) : State := s.killTasks [n]

/-- A kill of a region and its descendants (R389). -/
def State.killRegion (s : State) (h : BitVec 32) : State :=
  let hs := s.subtree h
  let ns := (s.allSlots.filter fun p => p.2.st ≠ .free && hs.contains p.2.regionH).map Prod.fst
  let s := s.messageAll.killTasks ns
  { s with
    queues := s.queues.filter fun k => !hs.contains k.region
    regions := s.regions.filter fun r => !hs.contains r.handle }

/-! ### FRES (R381) -/

/-- The slot resumes at its resume point; what it accesses next follows an acquire of DEVICE scope. Its fault record, when
it still waits for its queue, is withdrawn. -/
def State.fresRetry (s : State) (n : SlotNo) : State :=
  ((s.withdraw n).modSlot n fun t => { t.resumeAt t.resume with faultRec := none }).modCore (coreOf n)
    fun c => c.clkTo s.mt

/-- A stopped command issued again for a slot: a copy or a stream load starts afresh, a pe.mma at NEXT.STEP (R292, R382). -/
def Cmd.reissued (m : Cmd) (id : Nat) (t : Slot) : Cmd :=
  if m.eng = 0 || m.eng = 2 then
    { m with id, stopped := false, pos := 0, aux := 0, bits := 0, served := [], snap := [] }
  else if m.eng = 3 then
    { m with id, stopped := false, snap := [], pos := if m.peOp = 2 then (fld (t.ereg 3 22) 0 32).toNat else m.pos }
  else { m with id, stopped := false, data := if m.eng = 4 then [] else m.data }

/-- What issuing a stopped command again writes in the slot: the group of a stream load has no element again, and NEXT.STEP
is 0 after a pe.mma has taken it (R292). -/
def Cmd.restartGroup (m : Cmd) (t : Slot) : Slot :=
  if m.eng = 2 then
    (groupRegs (fld m.word 6 5) (2 ^ m.grp.toNat)).foldl (fun t r => t.setV r { t.getV r with prog := some 0 }) t
  else if m.eng = 3 && m.peOp = 2 then t.setEreg 3 22 0
  else t

/-- The commit that a shading task awaits, under its new number. -/
def State.renumberCommit (s : State) (old new : Nat) : State :=
  { s with dies := s.dies.map fun e => { e with gfx := { e.gfx with tiles := e.gfx.tiles.map fun t =>
      { t with tasks := t.tasks.map fun k => if k.commit = some old then { k with commit := some new } else k } } } }

/-- Every stopped command of the slot issued again. -/
def State.reissue (s : State) (n : SlotNo) : State :=
  (s.cmds.filter fun m => m.slot = n && m.stopped).foldl (fun s m =>
    let s := s.renumberCommit m.id s.nextCmd
    let s' : State :=
      { s with cmds := s.cmds.filter (fun k => k.id ≠ m.id) ++ [m.reissued s.nextCmd (s.getSlot n)], nextCmd := s.nextCmd + 1 }
    s'.modSlot n fun t => m.restartGroup (t.countCmd m.eng.toNat 1 0)) s

def State.fresReissue (s : State) (n : SlotNo) : State := (s.reissue n).fresRetry n
def State.fresExtend (s : State) (n : SlotNo) : State :=
  (s.modSlot n fun t => { t with taskcyc := 0 }).fresRetry n

/-- The result of an FRES and the state it leaves. -/
def State.fres (s : State) (w : Dword) : Dword × State :=
  let n : SlotNo := fld w 0 16
  let t := s.getSlot n
  if fld w 36 28 ≠ 0 || 4 ≤ (fld w 32 4).toNat then (refusalWord 2, s)
  else if t.st ≠ .faulted || t.seq ≠ fld w 16 16 then (refusalWord 1, s)
  else if !s.sameTree t.regionH s.slot.regionH then (refusalWord 3, s)
  else
    (0, match (fld w 32 4).toNat with
      | 0 => s.fresRetry n
      | 1 => s.fresReissue n
      | 2 => s.killTask n
      | _ => s.fresExtend n)

/-- An action on the FAULTED slot that the event names. -/
def State.onFaulted (s : State) (f : State → SlotNo → State) : Out :=
  if (s.getSlot s.arg.n).st = .faulted then .next (f s s.arg.n) else .fault .noObject

def execFresRetry (s : State) : Out := s.onFaulted State.fresRetry
def execFresReissue (s : State) : Out := s.onFaulted State.fresReissue
def execFresKill (s : State) : Out := s.onFaulted State.killTask
def execFresExtend (s : State) : Out := s.onFaulted State.fresExtend

/-! ### RCTL (R388) -/

/-- Dispatch of a region and its descendants suspended or resumed. -/
def State.setSuspended (s : State) (h : BitVec 32) (b : Bool) : State :=
  let hs := s.subtree h
  { s.messageAll with regions := s.regions.map fun r => if hs.contains r.handle then { r with suspended := b } else r }

def State.rctl (s : State) (w : Dword) : Dword × State :=
  let h : BitVec 32 := fld w 0 32
  let op := (fld w 32 2).toNat
  if fld w 34 30 ≠ 0 || op = 3 then (refusalWord 2, s)
  else if (s.region h).isNone then (refusalWord 1, s)
  else if !s.sameTree h s.slot.regionH then (refusalWord 3, s)
  else if op = 2 && (s.path s.slot.regionH).contains h then (refusalWord 4, s)
  else (0, if op = 2 then s.killRegion h else s.setSuspended h (op = 1))

/-- An action on the live region that the event names. -/
def State.onRegion (s : State) (f : State → BitVec 32 → State) : Out :=
  let h := BitVec.ofNat 32 s.arg.t
  if (s.region h).isSome then .next (f s h) else .fault .noObject

def execRctlResume (s : State) : Out := s.onRegion fun s h => s.setSuspended h false
def execRctlSuspend (s : State) : Out := s.onRegion fun s h => s.setSuspended h true
def execRctlKill (s : State) : Out := s.onRegion State.killRegion

/-! ### QSAVE (R390) -/

/-- The entries of a queue written to its image in dispatch order. -/
def State.saveQueue (s : State) (k : Queue) : State :=
  k.ordered.zipIdx.foldl (fun s p => s.homeWrite (k.store.toNat + 64 * p.2) 64 p.1.toNat) s

def State.qsave (s : State) (w : Dword) : Dword × State :=
  if fld w 16 48 ≠ 0 then (refusalWord 2, s)
  else match s.queue (fld w 0 16).toNat with
    | none => (refusalWord 1, s)
    | some k =>
      if !s.sameTree k.region s.slot.regionH then (refusalWord 3, s)
      else (BitVec.ofNat 64 k.entries.length, s.saveQueue k)

def execQsave (s : State) : Out :=
  match s.queue s.arg.q.toNat with
  | none => .fault .noObject
  | some k => .next (s.saveQueue k)

/-! ### TLBINV (R387) -/

/-- Every core's TLB filtered; a core that is not listed holds nothing. Every die is told (R449). -/
def State.tlbKeep (s : State) (p : TlbEntry → Bool) : State :=
  { s.messageAll with
    core := { s.core with tlb := s.core.tlb.filter p }
    otherCores := s.otherCores.map fun c => (c.1, { c.2 with tlb := c.2.tlb.filter p }) }

/-- The translations of the page that holds an address, in one space. -/
def State.tlbDropPage (s : State) (root va : Dword) : State := s.tlbKeep fun e => (tlbFind [e] root va).isNone

def State.tlbinv (s : State) (w : Dword) : Dword × State :=
  if fld w 56 8 ≠ 0 || fld w 1 11 ≠ 0 then (refusalWord 2, s)
  else (0, if w.getLsbD 0 then s.tlbKeep fun _ => false else s.tlbDropPage (s.rootOf s.slot) w)

/-- An access that may have used a translation is on its way and not performed: a store or a packet that awaits its
acknowledgement (R387, R413, R414, R430). -/
def State.inFlight (s : State) : Bool := s.allSlots.any fun p => p.2.unacked ≠ 0 || p.2.packets ≠ 0

/-- TLBINV_PAGE and TLBINV_ALL complete when every access that used a removed translation has been performed. -/
def execTlbinvPage (s : State) : Out :=
  .next (if s.inFlight then s.post .tlbinvPage s.arg else s.tlbDropPage (s.rootOf (s.getSlot s.arg.n)) s.arg.va)
def execTlbinvAll (s : State) : Out :=
  .next (if s.inFlight then s.post .tlbinvAll s.arg else s.tlbKeep fun _ => false)

/-! ### crr, crw, crs, crc (R112, R113) -/

/-- The command that a write of a command register performs: its result and the state (R381, R387, R388, R390). -/
def State.command (s : State) (n : Nat) (v : Dword) : Dword × State :=
  match n with
  | 0x70 => s.fres v
  | 0x71 => s.rctl v
  | 0x72 => s.qsave v
  | _ => s.tlbinv v

def execCrr (d : RegNo) (n : BitVec 12) (s : State) : Out := s.op0 d (s.crRead n.toNat)

/-- A write of VLMAXP that changes L waits for the vector queues of the core (R17). -/
def State.lanesWait (s : State) (n : Nat) (v : Dword) : Bool := n = 3 && s.lanesHeld s.coreNo (fld v 0 4).toNat

/-- A form that writes: the old value to rd, `f old s(rs1)` to the register. The state in place is the issuer's. A write of
STATUS that changes LM judges rd as a link under the old LM: R112 does not say (log 82). -/
def State.crWrite (s : State) (d a : RegNo) (n : Nat) (f : Dword → Dword → Dword) : Out :=
  if s.slot.crLocked n then s.illegal
  else s.linkGate [a] (some d)
    (let old := s.crRead n
     let v := f old (s.src [] a)
     if s.lanesWait n v then .next s.holdOn
     else match (s.retire [a] d old).crPut n v with
      | none => s.illegal
      | some s' => .next s')

/-- A TLBINV that is not refused waits for the accesses that used the translations (R387). -/
def State.commandWaits (s : State) (n : Nat) (v : Dword) : Bool := n = 0x73 && s.inFlight && (s.tlbinv v).1 = 0

/-- The write of a command register performs the command and returns its result (R381). -/
def State.crCommand (s : State) (d a : RegNo) (n : Nat) : Out :=
  if s.slot.crLocked n then s.illegal
  else s.linkGate [a] (some d)
    (s.release 5
      (if s.commandWaits n (s.src [] a) then .next s.holdOn
       else
         let r := (s.popLinks [a]).command n (s.src [] a)
         .next (r.2.putX d r.1)))

def execCrw (d a : RegNo) (n : BitVec 12) (s : State) : Out :=
  if crCommand n.toNat then s.crCommand d a n.toNat else s.crWrite d a n.toNat fun _ x => x

/-- crs and crc: with rs1 = 0 they only read; on a command register they otherwise trap ILLEGAL (R113, R381). -/
def State.crModify (s : State) (d a : RegNo) (n : Nat) (f : Dword → Dword → Dword) : Out :=
  if a = 0 then s.op0 d (s.crRead n)
  else if Sys2Proof.Machine.crCommand n then s.illegal
  else s.crWrite d a n f

def execCrs (d a : RegNo) (n : BitVec 12) (s : State) : Out := s.crModify d a n.toNat fun o x => o ||| x
def execCrc (d a : RegNo) (n : BitVec 12) (s : State) : Out := s.crModify d a n.toNat fun o x => o &&& ~~~x

/-! ### sys, brk, tret (R378, R393) -/

/-- sys and brk wait for the earlier instructions of the slot, its fences among them, then trap after themselves. -/
def State.callTrap (s : State) (i : TrapInfo) : Out :=
  if s.slot.fences.isEmpty then s.trap { i with after := true } else .next s.holdOn

def execSys (s : State) : Out := s.callTrap { cause := causeSys, tval := s.getX 4, txval := s.getX 5 }

def execBrk (s : State) : Out := s.callTrap { cause := causeBrk }

def execTret (s : State) : Out :=
  if s.slot.loop || !s.slot.busy then s.illegal else .next (s.upd Slot.tret)

/-! ### The modifier prefix (R86) -/

/-- The meaning of a target form; none for every other instruction. -/
def prefixTarget (i : Instr) (s : State) : Option Out :=
  match i with
  | .add d a b => some (execAdd d a b s)
  | .sub d a b => some (execSub d a b s)
  | .mul d a b => some (execMul d a b s)
  | .min d a b => some (execMin d a b s)
  | .minu d a b => some (execMinu d a b s)
  | .max d a b => some (execMax d a b s)
  | .maxu d a b => some (execMaxu d a b s)
  | .fadd d a b f r => some (execFadd d a b f r s)
  | .fsub d a b f r => some (execFsub d a b f r s)
  | .fmul d a b f r => some (execFmul d a b f r s)
  | .fdiv d a b f r => some (execFdiv d a b f r s)
  | .fmac d a b f r => some (execFmac d a b f r s)
  | .fnmac d a b f r => some (execFnmac d a b f r s)
  | .fmin d a b f => some (execFmin d a b f s)
  | .fmax d a b f => some (execFmax d a b f s)
  | .fcvtf d a f t r => some (execFcvtf d a f t r s)
  | .fcvtt d a f t r => some (execFcvtt d a f t r s)
  | .vadd d a b m p => some (execVadd d a b m p s)
  | .vsub d a b m p => some (execVsub d a b m p s)
  | .vmul d a b m p => some (execVmul d a b m p s)
  | .vdiv d a b m p => some (execVdiv d a b m p s)
  | .vmin d a b m p => some (execVmin d a b m p s)
  | .vmax d a b m p => some (execVmax d a b m p s)
  | .vmac d a b m p => some (execVmac d a b m p s)
  | _ => none

/-- The word after a prefix: the next body position, or the next address (R86). A prefix that is the last word of a loop body
has no next position: its second word is fetched from the address after the body, and the pass ends with the pair (R86, R118
do not say: log 80). -/
def State.pairWord (s : State) : Res (BitVec 32) :=
  match if s.slot.loop then s.slot.body[s.slot.bpos.toNat + 1]? else none with
  | some w => .ok w s
  | none => s.fetchAt (s.slot.pc + 4)

/-- The state after a pair: the latches hold the prefix again, so that a pair that waits is run again whole; its second word
stays beside it while it waits. -/
def Slot.endPair (t : Slot) (w w2 : BitVec 32) : Slot := { t with pfx := if t.hold then w2 else 0, ir := w }

def Outcome.map (o : Out) (f : State → State) : Out :=
  match o with
  | .next s => .next (f s)
  | .fault e => .fault e
  | .refused e => .refused e

/-- A word that decodes to no instruction traps ILLEGAL; where it is a prefix with a reserved bit set, the word after it is
fetched first, and a fault of that fetch is the trap (R66). -/
def State.undecoded (s : State) : Out :=
  if fld s.slot.ir 26 6 = 0x3F then s.pairWord.out fun _ s => s.illegal else s.illegal

/-- pfx: the pair issues once. The word after the prefix is fetched before the prefix's own checks (R66). -/
def execPfx (_sat _clamp _nega _negb _absa _absb : Bool) (_scale : BitVec 7) (s : State) : Out :=
  let w := s.slot.ir
  s.pairWord.out fun w2 s =>
    if s.slot.mode ≠ 2 then s.illegal
    else
      let s2 := s.upd fun t => { t with pfx := w, ir := w2, npc := t.pc + 8 }
      match (decode w2).bind fun i => prefixTarget i s2 with
      | some o => Outcome.map o fun s => s.upd fun t => t.endPair w w2
      | none => (s.trap { cause := causeIllegal, tval := w2.setWidth 64 })

/-! ### Delivery as events (R375, R376, R379) -/

/-- A slot that leaves PARKED without completing (R191, R382). -/
def Slot.unparkTrap (t : Slot) : Slot := { t with park := .none, recd := none, launch := none, leaving := false }

/-- A slot parked in a bar.sync whose arrival is counted keeps its token for the resume point (R191). -/
def Slot.keepArrival (t : Slot) : Slot :=
  match t.st, t.park with
  | .parked, .barrier _ tok true => { t with arrTok := some tok }
  | _, _ => t

/-- The trap that is due in the slot in place at this boundary; a parked slot takes it at the instruction that parked it,
where a bar.sync keeps its counted arrival (R191). -/
def State.dueTrap (s : State) (i : TrapInfo) : State :=
  ((s.withdraw s.slotNo).upd fun t => (t.keepArrival).unparkTrap).takeTrap i

/-- LOCAL_TRAP_ENTRY. -/
def execLocalTrapEntry (s : State) : Out :=
  let s := s.focus s.arg.n
  if s.slot.deliversLocally s.arg.trap && (s.slot.st = .running || s.slot.st = .parked) then .next (s.dueTrap s.arg.trap)
  else .fault .noObject

/-- FAULT_DOMAIN_DELIVERY. -/
def execFaultDomainDelivery (s : State) : Out :=
  let s := s.focus s.arg.n
  if !s.slot.deliversLocally s.arg.trap && (s.slot.st = .running || s.slot.st = .parked) then .next (s.dueTrap s.arg.trap)
  else .fault .noObject

/-- TASK_LIMIT: the trap, and LIMITS of the region. -/
def execTaskLimit (s : State) : Out :=
  let s := s.focus s.arg.n
  if s.slot.limitDue && (s.slot.st = .running || s.slot.st = .parked) then
    .next ((s.bump s.slot.regionH ctrLimits 1).dueTrap { cause := causeTaskLimit, tval := s.slot.tasklim.setWidth 64 })
  else .fault .noObject

/-- The pending engine fault that is taken first (R374). -/
def Slot.firstFault (t : Slot) : Option EngFault :=
  t.efaults.foldl (fun b f =>
    match b with
    | none => some f
    | some g => if f.eng.toNat < g.eng.toNat then some f else some g) none

/-- The pending engine fault taken. -/
def State.takeEngineFault (s : State) (f : EngFault) : State :=
  (s.upd fun t => { t with efaults := t.efaults.erase f }).dueTrap f.info

/-! ### Fault records (R380) -/

/-- The queue that takes a fault record of a region: the first on its path whose effective fault domain names a bound queue
of the tree. -/
def State.faultQueue (s : State) (h : BitVec 32) : Option Queue :=
  (s.path h).findSome? fun r =>
    (s.region r).bind fun g => (s.queue g.fdom.toNat).bind fun k => if s.sameTree k.region h then some k else none

/-- A root with no valid fault domain: the management core reports the fault and kills the tree. -/
def State.reportKill (s : State) (h : BitVec 32) (r : Rec) : State :=
  let s := { s with nasum := { s.nasum with reports := s.nasum.reports ++ [r] } }
  match s.treeRoot h with
  | some g => s.killRegion g
  | none => s

/-- The release of a FAULTED slot's record, of all classes at DEVICE scope, has been performed (R194, R379). -/
def State.faultReleased (s : State) (n : SlotNo) : Bool := !s.liveCmds n && (s.getSlot n).packets = 0

/-- A waiting fault record of a slot can be dealt with now. -/
def State.faultRecReady (s : State) (n : SlotNo) : Bool :=
  let t := s.getSlot n
  t.faultRec.isSome && s.faultReleased n
    && (match s.faultQueue t.faultReg with
      | none => true
      | some k => if k.waiters.contains (.slot n) then k.canResume (.slot n) else true)

/-- A fault record that stands alone, of a region (R422). -/
def State.looseRecReady (s : State) (h : BitVec 32) : Bool :=
  match s.faultQueue h with
  | none => true
  | some k => k.room

/-- FAULT_RECORD_ENQUEUE: the record of the FAULTED slot, or with `wants` the record of a lost seam (R422), is enqueued,
waits in the order of a full queue, or goes to the management core. -/
def execFaultRecordEnqueue (s : State) : Out :=
  if s.arg.wants then
    let h := BitVec.ofNat 32 s.arg.t
    let r := Rec.ofNat (natOfBytes s.arg.data)
    match s.faultQueue h with
    | none => .next (s.reportKill h r)
    | some k => .next (if k.room then s.enqueue k.num r else s.post .faultRecordEnqueue s.arg)
  else
    let n := s.arg.n
    let t := s.getSlot n
    match t.faultRec with
    | none => .fault .noObject
    | some r =>
      if !s.faultReleased n then .fault .noObject
      else
        let done (s : State) : State := s.modSlot n fun t => { t with faultRec := none }
        match s.faultQueue t.faultReg with
        | none => .next ((done s).reportKill t.faultReg r)
        | some k =>
          if k.waiters.contains (.slot n) then
            if k.canResume (.slot n) then
              .next (done ((s.modQueue k.num fun k => { k with waiters := k.waiters.drop 1 }).enqueue k.num r))
            else .next s
          else if k.room then .next (done (s.enqueue k.num r))
          else .next (s.modQueue k.num fun k => { k with waiters := k.waiters ++ [.slot n] })

/-! ### Page walks (R383) -/

/-- PAGE_WALK: a walk for an access of the slot; a fault of the walk is taken by the slot. -/
def execPageWalk (s : State) : Out :=
  let s := s.focus s.arg.n
  match s.walkFill s.ctx s.arg.va s.arg.kind with
  | .ok _ s => .next s
  | .trap t s => s.trap t
  | .wait s | .miss s => .next (s.post .pageWalk s.arg)

end Sys2Proof.Machine
end

