-- ==== Sys2Proof/Machine/Dispatcher.lean ====
section
/-! DEFINITION. The dispatchers of the compute dies, the pick-up of a record, the stage governor, the central balancer and
the passing of time (R158, R164, R165, R167, R172, R178 to R184, R223). -/

namespace Sys2Proof.Machine

/-! ### Free slots (R159, R165) -/

/-- The slots of a die that are not FREE. -/
def State.busySlots (s : State) (d : DieNo) : List SlotNo :=
  (s.allSlots.filter fun p => p.2.st ≠ .free && dieOf p.1 = d).map Prod.fst

/-- The free slot numbers of a core among a list of busy slots, in ascending order. -/
def freeOf (busy : List SlotNo) (c : CoreNo) : List SlotNo :=
  ((List.range 8).map fun i => BitVec.ofNat 16 (c.toNat * 8 + i)).filter fun n => !busy.contains n

/-- A slot of a request that arrives at module reset: ascending SLOTID, within it ascending COREID (R180). -/
def resetRequest (d : DieNo) (k : Nat) : SlotNo := BitVec.ofNat 16 ((d.toNat * 1024 + k % 1024) * 8 + k / 1024)

/-- The first request of module reset that is still pending: slots taken by a team before have none. -/
def Die.firstReset (e : Die) (d : DieNo) : Option Nat :=
  if e.fresh < 8192 then
    (List.range (e.early.length + 1)).findSome? fun i =>
      let k := e.fresh + i
      if k < 8192 && !e.early.contains (resetRequest d k) then some k else none
  else none

/-! ### Admission (R164, R165, R178) -/

/-- The slots resident in a stage. -/
def State.stageResident (s : State) (q : BitVec 12) : Nat :=
  (s.allSlots.filter fun p => p.2.st ≠ .free && p.2.taskQueue = q.toNat).length

def State.withinQuota (s : State) (k : Queue) (n : Nat) : Bool :=
  k.pipe = 0 || s.stageResident k.num + n ≤ k.quota

/-- Where a team goes: its cluster, and the slot of each member. -/
structure Placement where
  clus : BitVec 2
  slots : List SlotNo
deriving DecidableEq, Repr

/-- The free slots of a cluster of the die. -/
def clusterFree (busy : List SlotNo) (d : DieNo) (c : Nat) : Nat :=
  2048 - (busy.filter fun n => clusOfCore (coreOf n) = d.toNat * 4 + c).length

/-- The first `n` cores of a cluster, from core `i` on, that have `m` free slots: their `m` lowest free slots. -/
def teamCores (busy : List SlotNo) (base m : Nat) : Nat → Nat → Nat → List (List SlotNo)
  | 0, _, _ => []
  | fuel + 1, i, n =>
    if n = 0 then []
    else
      let f := freeOf busy (BitVec.ofNat 13 (base + i))
      if m ≤ f.length then f.take m :: teamCores busy base m fuel (i + 1) (n - 1)
      else teamCores busy base m fuel (i + 1) n

/-- The placement of a team in a cluster, if it fits. -/
def State.fitCluster (s : State) (busy : List SlotNo) (d : DieNo) (r : Rec) (c : Nat) : Option Placement :=
  let m := r.perCore
  let k := (r.teamSize + m - 1) / m
  let cs := teamCores busy (d.toNat * 1024 + c * 256) m 256 0 k
  let used := (s.teams.filter fun t => t.die = d && t.clus.toNat = c).length
  if cs.length = k && used < 256 then some { clus := BitVec.ofNat 2 c, slots := cs.flatten.take r.teamSize } else none

/-- The cluster with the most free slots among those that fit, the lowest number on a tie (R165). -/
def State.placeFor (s : State) (d : DieNo) (r : Rec) : Option Placement :=
  let busy := s.busySlots d
  ((List.range 4).foldl (fun (b : Option (Nat × Placement)) c =>
    match s.fitCluster busy d r c with
    | none => b
    | some p =>
      let f := clusterFree busy d c
      match b with
      | some (g, _) => if g < f then some (f, p) else b
      | none => some (f, p)) none).map Prod.snd

/-- The entry that a queue would give up to a request of slot `n`, when it is admissible. A HELD slot takes its own RESUME
entry alone; a FREE one takes any other. -/
def State.candidate (s : State) (n : SlotNo) (k : Queue) : Option Rec :=
  let d := dieOf n
  if ((s.region k.region).elim true Region.suspended) then none
  else
    k.head.bind fun e =>
      let ok :=
        if (s.getSlot n).st = .held then e.resume && s.resumeSlot d e = some n
        else if e.resume then false
        else if e.team then
          s.withinBudget k.region e.teamSize && s.withinQuota k e.teamSize && (s.placeFor d e).isSome
        else s.withinBudget k.region 1 && s.withinQuota k 1
      if ok then some e else none

/-- The candidate queues of a request, with their entries. -/
def State.candidates (s : State) (n : SlotNo) : List (Queue × Rec) :=
  (s.queues.filter fun k => queueDie k.num = dieOf n).filterMap fun k => (s.candidate n k).map fun e => (k, e)

/-! ### The choice of R180 -/

/-- The effective priority. -/
def State.eprio (s : State) (k : Queue) : Nat := min 7 (k.prio.toNat + ((s.die (queueDie k.num)).cycle - k.since) / 2 ^ 20)

/-- `h` lies in the cyclic interval from `a` up to but not including `b`. -/
def cyclicIn (a b h : Nat) : Bool := if a ≤ b then a ≤ h && h < b else a ≤ h || h < b

/-- The least number of a list at or after `a`, wrapping. -/
def cyclicFirst (l : List Nat) (a : Nat) : Nat := ((l.filter fun h => a ≤ h).min?).getD (l.min?.getD 0)

/-- The choice among candidates: priority, region, queue and entry, and the die's DRR state after it (R180). Before a region's
first grant qptr stands before queue 0 (DESIGN CHOICE, log 4). -/
def State.choose (s : State) (d : DieNo) (cs : List (Queue × Rec)) : Option (Nat × Queue × Rec × Die) :=
  let e := s.die d
  let p := (cs.map fun c => s.eprio c.1).max?.getD 0
  let cs := cs.filter fun c => s.eprio c.1 = p
  let start := (e.ptr.toList.getD p 0).toNat
  let gs := cs.map fun c => c.1.region.toNat
  let g := cyclicFirst gs start
  let mine := cs.filter fun c => c.1.region.toNat = g
  let h := BitVec.ofNat 32 g
  let last := (e.qptr.find? fun q => q.1 = g).map Prod.snd
  let qn := cyclicFirst (mine.map fun c => c.1.num.toNat) (last.elim 0 (· + 1))
  (mine.find? fun c => c.1.num.toNat = qn).map fun c =>
    let def0 := e.deficit.map fun x => if x.1 ≠ g && cyclicIn start g x.1 then (x.1, 0) else x
    let d0 := aget 0 def0 g
    let w := (s.region h).elim 1 fun r => max 1 r.weight.toNat
    let d1 := (if d0 = 0 then w else d0) - 1
    (p, c.1, c.2, { e with
      deficit := aset def0 g d1
      qptr := aset e.qptr g qn
      ptr := e.ptr.setIfInBounds p (if d1 = 0 then BitVec.ofNat 32 (cyclicFirst gs (g + 1)) else h) })

/-! ### Grants -/

/-- A slot that a record is granted to: STARTING, with its task's identity (R158, R170, R171). -/
def State.startSlot (s : State) (n : SlotNo) (r : Rec) (team : Dword) : State :=
  s.modSlot n fun t =>
    { t.freed with
      st := .starting
      recd := some r
      tinfo := BitVec.ofNat 64 ((fld r.w1 0 32 : BitVec 32).toNat * 2 ^ 32 + (fld r.w1 32 16 : BitVec 16).toNat * 2 ^ 16
        + r.depth.toNat * 2 ^ 8 + (fld r.w1 56 3 : BitVec 3).toNat * 2 ^ 5)
      tkey := r.key
      team
      tasklim := (s.region r.region).elim 0 Region.tlimit }

/-- The request of a slot answered: it is removed from the list, or from those of module reset. -/
def State.answerRequest (s : State) (d : DieNo) (n : SlotNo) : State :=
  s.modDie d fun e =>
    if e.reqs.contains n then { e with reqs := e.reqs.filter fun q => q ≠ n }
    else if e.early.contains n || resetIndex n < e.fresh then e
    else if resetIndex n = e.fresh then { e with fresh := e.fresh + 1 }
    else { e with early := n :: e.early }

/-- Requests of module reset whose slots were taken by a team are passed over. -/
def Die.skipEarly (d : DieNo) : Nat → Die → Die
  | 0, e => e
  | k + 1, e =>
    if e.early.contains (resetRequest d e.fresh) then
      Die.skipEarly d k { e with fresh := e.fresh + 1, early := e.early.filter fun n => n ≠ resetRequest d e.fresh }
    else e

def State.takeRequest (s : State) (d : DieNo) (n : SlotNo) : State :=
  (s.answerRequest d n).modDie d fun e => Die.skipEarly d e.early.length e

/-- An entry out of its queue by a grant. -/
def State.takeEntry (s : State) (k : Queue) (e : Rec) : State :=
  s.modQueue k.num fun q => { q with entries := dropFirst e q.entries, since := (s.die (queueDie k.num)).cycle }

/-- The TEAM register of member j (R170). -/
def teamReg (r : Rec) (clus : BitVec 2) (ctx : BitVec 8) (j : Nat) : Dword :=
  BitVec.ofNat 64 ((fld r.fp 0 32 : BitVec 32).toNat * 2 ^ 32 + 2 ^ 31 + clus.toNat * 2 ^ 24 + (r.teamSize - 1) * 2 ^ 16
    + ctx.toNat * 2 ^ 8 + j)

/-- TEAM_ADMISSION (R165, R218): a free context of the cluster, and every member started. -/
def State.admitTeam (s : State) (d : DieNo) (k : Queue) (r : Rec) (p : Placement) : State :=
  let free := (List.range 256).filter fun c => !s.teams.any fun t => t.die = d && t.clus = p.clus && t.ctx.toNat = c
  let (n, s) := s.draw
  let ctx := BitVec.ofNat 8 (free.getD (Config.teamContext n % free.length) 0)
  let s := (s.bumpResident k.region r.teamSize).bump k.region ctrDispatched 1
  let s := { s with teams := s.teams ++
    [{ die := d, clus := p.clus, ctx, region := k.region, teamno := fld r.fp 0 32, recPc := r.pc,
       queue := fld r.w1 32 16, size := r.teamSize, slots := p.slots }] }
  p.slots.zipIdx.foldl (fun s q => (s.startSlot q.1 r (teamReg r p.clus ctx q.2)).takeRequest d q.1) s

/-- A grant of an entry to the slot of a request (R180). -/
def State.grant (s : State) (d : DieNo) (n : SlotNo) (p : Nat) (k : Queue) (e : Rec) : State :=
  let s := s.takeEntry k e
  let r := { e with w1 := setFld e.w1 56 (BitVec.ofNat 3 p) }
  if r.team then
    match s.placeFor d r with
    | some q => s.admitTeam d k r q
    | none => s
  else if r.resume then
    let s := ((s.bumpResident (s.getSlot n).regionH (-1)).bumpResident k.region 1).bump k.region ctrDispatched 1
    (s.startSlot n r r.fp).takeRequest d n
  else (((s.bumpResident k.region 1).bump k.region ctrDispatched 1).startSlot n r 0).takeRequest d n

/-- The dispatcher of a die has an entry to discard (R167). -/
def State.hasDead (s : State) (d : DieNo) : Bool :=
  s.queues.any fun k => queueDie k.num = d && k.entries.any (s.deadEntry d)

/-- The request that the dispatcher answers, with its candidates: the first in arrival order that has any. -/
def State.answerable (s : State) (d : DieNo) : Option (SlotNo × List (Queue × Rec)) :=
  let e := s.die d
  let reqs := ((e.firstReset d).map (resetRequest d)).toList ++ e.reqs
  reqs.findSome? fun n =>
    let cs := s.candidates n
    if cs.isEmpty then none else some (n, cs)

/-- A dispatcher grants nothing on a lost die or with its clocks gated (R421, R449). -/
def State.dispatching (s : State) (d : DieNo) : Bool := !(s.die d).lost && (s.die d).power = .active

/-- DISPATCH_GRANT: entries without a team are discarded, then the request is answered. -/
def execDispatchGrant (s : State) : Out :=
  let d := s.arg.die
  let dead := s.hasDead d
  let s := s.dropDead d
  if !s.dispatching d then .fault .noObject
  else
    match s.answerable d with
    | none => if dead then .next s else .fault .noObject
    | some (n, cs) =>
      match s.choose d cs with
      | none => .fault .noObject
      | some (p, k, e, die) => .next ((s.setDie d die).grant d n p k e)

/-! ### Pick-up (R158, R194, R405, R452) -/

/-- The slot's own items at pick-up. -/
def Slot.pickUp (t : Slot) (r : Rec) (mode : BitVec 2) : Slot :=
  let x := ((((Slot.reset.x.set 3 (if t.inTeam then 0 else r.fp)).set 4 r.arg0).set 5 r.arg1).set 6 r.arg2).set 7 r.arg3
  { t.cleared with
    x, pc := r.pc, npc := r.pc, lm := r.lm, mode, st := .running
    tinfo := t.tinfo, tkey := t.tkey, team := t.team, tasklim := t.tasklim, taskcyc := t.taskcyc, recPc := r.pc }

/-- A reserved bit of bytes 0 to 15 of a granted record. -/
def Rec.badAtPickUp (r : Rec) : Bool := fld r.w0 59 5 ≠ 0 || fld r.w1 59 5 ≠ 0

/-- PICK_UP. -/
def execPickUp (s : State) : Out :=
  let s := s.focus s.arg.n
  match s.slot.st, s.slot.recd with
  | .starting, some r =>
    let mode := (s.region r.region).elim 2 Region.mode
    let s := ((s.upd fun t => t.pickUp r mode).syncTime 5).updCore fun c => { c with icache := [] }
    if fld r.pc 0 2 ≠ 0 then s.trap (misalignedTrap (r.pc.setWidth 64))
    else if r.badAtPickUp then s.trap { cause := causeIllegal, tval := r.w0 }
    else .next s
  | _, _ => .fault .noObject

/-! ### The stage governor (R179) -/

inductive StageSt where
  | blocked | starved | backlogged | steady
deriving DecidableEq, Repr

/-- A queue is downstream of a stage: a stage of its pipeline with a higher number. -/
def State.downstream (s : State) (k : Queue) (q : Nat) : Bool :=
  (s.queue q).any fun j => queueDie j.num = queueDie k.num && j.pipe = k.pipe && k.stage.toNat < j.stage.toNat

/-- The state of a stage: BLOCKED when a slot of it is parked on a full downstream queue. -/
def State.stageState (s : State) (k : Queue) : StageSt :=
  if s.allSlots.any fun p => p.2.st = .parked && p.2.park = .queue && p.2.taskQueue = k.num.toNat
      && s.downstream k p.2.recQ.toNat then .blocked
  else if k.entries.isEmpty then .starved
  else if k.cap ≤ 2 * k.entries.length then .backlogged
  else .steady

/-- The stage of least or greatest number among those that satisfy a condition. -/
def pickStage (l : List Queue) (low : Bool) : Option Queue :=
  l.foldl (fun b k =>
    match b with
    | none => some k
    | some q => if (if low then k.stage.toNat < q.stage.toNat else q.stage.toNat < k.stage.toNat) then some k else some q) none

/-- One pipeline's evaluation. -/
def State.governPipe (s : State) (d : DieNo) (pipe : BitVec 8) : State :=
  let st := s.queues.filter fun k => queueDie k.num = d && k.pipe = pipe
  let rich (k : Queue) : Bool := k.minslots.toNat + 8 ≤ k.quota
  let donor :=
    (pickStage (st.filter fun k => s.stageState k = .blocked && rich k) true).or
      (pickStage (st.filter fun k => s.stageState k = .starved && rich k) true)
  let rcpt := pickStage (st.filter fun k =>
    s.stageState k = .backlogged && (k.maxslots = 0 || k.quota + 8 ≤ k.maxslots.toNat)) false
  match donor, rcpt with
  | some a, some b =>
    if a.num = b.num then s
    else (s.modQueue a.num fun k => { k with quota := k.quota - 8 }).modQueue b.num fun k => { k with quota := k.quota + 8 }
  | _, _ => s

/-- The pipelines of a die. -/
def State.pipes (s : State) (d : DieNo) : List (BitVec 8) :=
  ((s.queues.filter fun k => queueDie k.num = d && k.pipe ≠ 0).map Queue.pipe).eraseDups

/-- STAGE_GOVERNOR_EVALUATION: every pipeline of the die. -/
def execStageGovernorEvaluation (s : State) : Out :=
  let d := s.arg.die
  let s := (s.pipes d).foldl (fun s p => s.governPipe d p) s
  .next (s.modDie d fun e => { e with govAt := e.cycle })

/-! ### The central balancer (R183, R184) -/

/-- The movable entries of a die at a priority. -/
def State.movable (s : State) (d : DieNo) (p : Nat) : Nat :=
  ((s.queues.filter fun k => queueDie k.num = d && k.migr && k.prio.toNat = p).map fun k => k.entries.length).sum

/-- The dies that take part. -/
def State.liveDies (s : State) : List DieNo := allDies.filter fun d => !(s.die d).lost

/-- The die with the largest, or with the smallest value, the lowest number on a tie. -/
def pickDie (l : List DieNo) (f : DieNo → Nat) (big : Bool) : Option DieNo :=
  l.foldl (fun b d =>
    match b with
    | none => some d
    | some c => if (if big then f c < f d else f d < f c) then some d else some c) none

/-- The selection for one priority: of queues with equally many entries the lowest number, a tie that R183 leaves open
(log 84). -/
def State.selectMove (s : State) (p : Nat) : Option Migration :=
  let f (d : DieNo) : Nat := s.movable d p
  match pickDie s.liveDies f true, pickDie s.liveDies f false with
  | some h, some l =>
    if 128 ≤ f h - f l && (s.busySlots l).length < 8192 then
      let ks := s.queues.filter fun k =>
        queueDie k.num = h && k.migr && k.prio.toNat = p
          && (s.queue (l.toNat * 512 + k.num.toNat % 512)).any fun q => q.region = k.region
      (ks.foldl (fun (b : Option Queue) k =>
        match b with
        | none => some k
        | some q =>
          if q.entries.length < k.entries.length || (q.entries.length = k.entries.length && k.num.toNat < q.num.toNat)
          then some k else some q) none).map
        fun k => { src := k.num, dst := l, count := min ((f h - f l) / 2) 256 }
    else none
  | _, _ => none

/-- BALANCER_CYCLE: sample, decide, issue. -/
def execBalancerCycle (s : State) : Out :=
  let ms := (List.range 8).reverse.filterMap s.selectMove
  .next { s with migrations := s.migrations ++ ms, balAt := s.cycle }

/-- The entries that a source detaches with their places, in the order they held: from a FIFO queue the newest, from a keyed
one the highest keys, the latest arrival first among equals. A RESUME entry stays on its die (R167). R184 does not say which
order a keyed queue's entries held; the model takes that of their arrival, by which they then find room (DESIGN CHOICE, log
111). -/
def Queue.detach (k : Queue) (n : Nat) : List (Rec × Nat) :=
  let es := k.entries.zipIdx.filter fun e => !e.1.resume
  let key (e : Rec × Nat) : Nat := if k.keyed then e.1.key.toNat else 0
  let sooner (a b : Rec × Nat) : Bool := key b < key a || (key a = key b && b.2 < a.2)
  es.filter fun b => (es.filter fun a => sooner a b).length < n

/-- Entries moved as far as they fit; `gone` have left their places before those that follow. -/
def State.moveEntries (a b : BitVec 12) (gone : Nat) : List (Rec × Nat) → State → State
  | [], s => s
  | (e, i) :: r, s =>
    match s.queue b.toNat with
    | some q =>
      if q.room && e.depth.toNat ≤ q.maxdepth.toNat then
        State.moveEntries a b (gone + 1) r
          ((s.modQueue a fun k => { k with entries := k.entries.eraseIdx (i - gone) }).enqueue b e)
      else State.moveEntries a b gone r s
    | none => s

/-- MIGRATION_COMMAND: the first of the balancer's commands is performed and acknowledged; both dies are told of it (R449). -/
def execMigrationCommand (s : State) : Out :=
  match s.migrations with
  | [] => .fault .noObject
  | m :: r =>
    let s := ({ s with migrations := r }.messageDie (queueDie m.src)).messageDie m.dst
    match s.queue m.src.toNat with
    | none => .next s
    | some k => .next (State.moveEntries m.src (BitVec.ofNat 12 (m.dst.toNat * 512 + m.src.toNat % 512)) 0 (k.detach m.count) s)

/-! ### Time (R172, R185, R223) -/

/-- 64 cycles without a change of CLKTS have passed: it advances by 1. -/
def Core.tick (c : Core) : Core := { c with clkts := c.clkts + 1, clkIdle := c.clkIdle - 64 }

/-- CLKTS_TICK. -/
def execClktsTick (s : State) : Out :=
  if 64 ≤ (s.getCore s.arg.core).clkIdle then .next (s.modCore s.arg.core Core.tick) else .fault .noObject

/-- Cycles that pass at a core: its logical time, and the stall counters of the links, each by the number of its parked slots
that wait on the link (R185, R204). -/
def Core.elapse (c : Core) (k : Nat) (stalled : Fin 4 → Nat) : Core :=
  let i := c.clkIdle + k
  { c with
    clkts := c.clkts + i / 64
    clkIdle := i % 64
    stalls := Vector.ofFn fun j => BitVec.ofNat 32 (min ((c.stalls.get j).toNat + k * stalled j) (2 ^ 32 - 1)) }

/-- TASKCYC counts while the slot is STARTING, RUNNING or PARKED (R172); it is not saturated before 2^64. -/
def Slot.elapse (t : Slot) (k : Nat) : Slot :=
  match t.st with
  | .starting | .running | .parked => { t with taskcyc := t.taskcyc + BitVec.ofNat 64 k }
  | _ => t

/-- Nothing of a die is in use: no slot out of FREE, no command (R449). -/
def State.dieQuiet (s : State) (d : DieNo) : Bool := (s.busySlots d).isEmpty && !s.cmds.any fun m => dieOf m.slot = d

/-- The die may gate its clocks (R449). -/
def State.canIdle (s : State) (d : DieNo) : Bool :=
  (s.die d).power = .active && s.dieQuiet d && (s.die d).busyAt + 2 ^ 20 ≤ (s.die d).cycle

/-- A die after `k` of its own cycles. -/
def Die.elapse (e : Die) (quiet : Bool) (k : Nat) : Die :=
  { e with cycle := e.cycle + k, busyAt := if quiet then e.busyAt else e.cycle + k }

/-- The slots of a core that are parked on link `j` and wait for it. -/
def State.stalledOn (s : State) (c : CoreNo) (j : Fin 4) : Nat :=
  (s.allSlots.filter fun p =>
    coreOf p.1 = c && p.2.st = .parked && (match p.2.park with
      | .link a b => (s.linksShort p.1 a b).contains j
      | _ => false)).length

/-- The cycles of a die's clock that pass with a step whose number is `n`: none with its clocks gated, and never past the next
boundary of 1024 cycles, where its level may step (R449, R450). -/
def State.cyclesOf (s : State) (n : Nat) (d : DieNo) : Nat :=
  let e := s.die d
  if e.power = .active then min (Config.elapsed n d.toNat) (1024 - e.cycle % 1024) else 0

/-- Time passes in the module: every die and the hub by its own clock (R3, R450). -/
def State.elapse (s : State) (n : Nat) : State :=
  let k (c : CoreNo) : Nat := s.cyclesOf n (dieOfCore c)
  { s with
    cycle := s.cycle + Config.elapsed n 8
    slot := s.slot.elapse (k s.coreNo)
    others := s.others.map fun p => (p.1, p.2.elapse (k (coreOf (BitVec.ofNat 16 p.1))))
    dies := Vector.ofFn fun d =>
      (s.dies.get d).elapse (s.dieQuiet (BitVec.ofNat 3 d.val)) (s.cyclesOf n (BitVec.ofNat 3 d.val))
    core := s.core.elapse (k s.coreNo) (s.stalledOn s.coreNo)
    otherCores := s.otherCores.map fun p =>
      (p.1, p.2.elapse (k (BitVec.ofNat 13 p.1)) (s.stalledOn (BitVec.ofNat 13 p.1))) }

end Sys2Proof.Machine
end

