-- ==== Sys2Proof/Machine/Host.lean ====
section
/-! DEFINITION. The homes' work across dies, the host's traffic, and the loss of a seam (R177, R220, R281, R399 to R404, R408
to R411, R421, R422). -/

namespace Sys2Proof.Machine

/-! ### Lines (R398, R401) -/

def deviceLine (line : Nat) : Bool := line < 2 ^ 34

/-- An event at a line's home: a lost home answers nothing, and a line that the host must give first is asked for, after
which the event is performed again (R410, R411, R421). -/
def State.atHome (s : State) (i : Instr) (line : Nat) (wr : Bool) (k : Out) : Out :=
  if !deviceLine line && !hostLine line then .fault .noObject
  else if s.poisoned line then .next (s.messageDie (homeDie (line * 64)))
  else if s.hostMissing (line * 64) wr then .next ((s.sendHostReq line wr).post i s.arg)
  else if s.hostHolds line wr then .next ((s.sendBisnp line wr).post i s.arg)
  else k

/-- HOME_READ: the home's part of a load by another die (R403). -/
def execHomeRead (s : State) : Out :=
  s.atHome .homeRead s.arg.line false (.next (s.readHome s.arg.die s.arg.line s.arg.t).1)

/-- HOME_UPGRADE: the home's part of a first write by another die (R403). -/
def execHomeUpgrade (s : State) : Out :=
  s.atHome .homeUpgrade s.arg.line true (.next (s.upgrade s.arg.die s.arg.line))

/-- SLICE_INVALIDATION: the die drops its read copy and acknowledges (R403). Copies in its L1s keep their leases. -/
def execSliceInvalidation (s : State) : Out :=
  let d := s.arg.die
  match s.sliceOf d s.arg.line with
  | some c => if c.owned then .fault .noObject else .next (((s.touchDie d).dropSlice d s.arg.line).unshare d s.arg.line)
  | none => .next ((s.touchDie d).unshare d s.arg.line)

/-- SLICE_EVICTION: an unpinned line leaves a slice of the die (R220, R403), and with it the die's decided cells of the line
(R434). -/
def execSliceEviction (s : State) : Out :=
  let d := s.arg.die
  let line := s.arg.line
  if s.pinnedLine d line then .fault .noObject
  else
    let s := s.dropCells d line
    if d = homeDie (line * 64) then .next (s.evictHome line)
    else
      match s.sliceOf d line with
      | some c => .next (s.dropCopy c)
      | none => .next s

/-- LINE_FILL: a line that its home slice misses is read from memory (R281). -/
def execLineFill (s : State) : Out :=
  let line := s.arg.line
  if !deviceLine line then .fault .noObject
  else .next (if (s.home line).held then s else s.fillHome line false)

/-- LINE_WRITEBACK: a written line that leaves its home slice is written back to memory (R281); a pinned line does not leave
it (R220). -/
def execLineWriteback (s : State) : Out :=
  let line := s.arg.line
  if !deviceLine line then .fault .noObject
  else .next (if (s.home line).written && !s.pinnedLine (homeDie (line * 64)) line then s.leaveHome line else s)

/-- DT_RISE_REPORT (R404). -/
def execDtRiseReport (s : State) : Out := .next { s with mt := max s.mt (s.die s.arg.die).dt }

/-! ### Snoops of host-memory lines (R410) -/

/-- A snoop finds no copy at the proxy home, or none that can be reached. -/
def State.noCopy (s : State) (line : Nat) : Bool :=
  (s.home line).hostSt = .inv || (s.die (homeDie (line * 64))).lost

/-- A snoop of a host line; the home that answers it is in use (R449). -/
def State.snoop (s : State) (f : Nat → State → State) : Out :=
  let line := s.arg.line
  if !hostLine line then .fault .noObject
  else if s.noCopy line then .next ((s.messageDie (homeDie (line * 64))).send (.hostDone line false))
  else .next (f line (s.touchDie (homeDie (line * 64))))

/-- The data of a line sent to the host. -/
def State.sendLine (s : State) (line : Nat) : State := s.send (.hostData line (s.lineData line) (s.poisoned line))

/-- SNPINV: every die copy is invalidated, the line is dropped, dirty data goes back, WTS := RTS + 1. -/
def State.snpInv (line : Nat) (s : State) : State :=
  let dirty := (s.home line).hostSt = .modified
  let s := (s.onlyHome line).leaveHome line
  let h := s.home line
  let s := (s.setHome line { h with wts := h.rts + 1, rts := h.rts + 1, hostSt := .inv }).riseTime (homeDie (line * 64)) (h.rts + 1)
  if dirty then s.sendLine line else s.send (.hostDone line false)

def execSnpinv (s : State) : Out := s.snoop State.snpInv

/-- SNPDATA: any M copy is recalled, the line stays in S, its data is returned. -/
def State.snpData (line : Nat) (s : State) : State :=
  let s := s.recallOwner line false
  (s.setHome line { s.home line with hostSt := .shared }).sendLine line

def execSnpdata (s : State) : Out := s.snoop State.snpData

/-- SNPCUR: the current data, no change of state. -/
def execSnpcur (s : State) : Out := s.snoop fun line s => s.sendLine line

/-- PROXY_HOME_LINE_FILL: the host returns a line asked for with RdShared, or with `wants` RdOwn; the accesses that wait for
it are tried again. -/
def execProxyHomeLineFill (s : State) : Out :=
  let line := s.arg.line
  if !s.fills.contains line then .fault .noObject
  else
    let s := { s with fills := s.fills.filter fun l => l ≠ line }
    if (s.die (homeDie (line * 64))).lost then .next s
    else
      let s := s.fillHome line false
      let h := s.home line
      .next { s.setHome line { h with hostSt := if s.arg.wants then .modified else .shared } with
        mem := s.mem.writeList (line * 64) (s.arg.data.take 64) }

/-! ### CXL.mem (R411) -/

/-- A host request for a device line: it is held while a back-invalidation of the line is outstanding. -/
def State.hostRequest (s : State) (i : Instr) (f : Nat → State → State) : Out :=
  let line := s.arg.line
  if !deviceLine line then .fault .noObject
  else if s.bisnp.contains line then .next (s.post i s.arg)
  else .next (f line s)

/-- MEMRD: the line's data, and H; with `wants` the host may then modify it. -/
def State.memRd (line : Nat) (s : State) : State :=
  if s.poisoned line then (s.messageDie (homeDie (line * 64))).sendLine line
  else
    let s := match s.rangeAt (line * 64) with
      | some r => s.collectLine r line
      | none => (s.recallOwner line false).fillHome line false
    let h := s.home line
    (s.setHome line { h with host := true, hostMod := h.hostMod || s.arg.wants }).sendLine line

def execMemrd (s : State) : Out := s.hostRequest .memrd State.memRd

/-- MEMWR: a store of the line at its home. The host keeps no modified copy. A POISON line, and one that holds a declared
range, is not changed (R225, R421). -/
def State.memWr (line : Nat) (s : State) : State :=
  if s.poisoned line then (s.messageDie (homeDie (line * 64))).send (.hostDone line true)
  else if s.touchesRange (line * 64) 64 then (s.touchDie (homeDie (line * 64))).send (.hostDone line false)
  else
    let d := s.arg.data.take 64
    let s := s.putHome (line * 64) d.length (natOfBytes d)
    (s.setHome line { s.home line with hostMod := false }).send (.hostDone line false)

def execMemwr (s : State) : Out := s.hostRequest .memwr State.memWr

/-- MEMINV (PRESUMED, from CXL: log 61): every copy of the module is dropped and the host may hold the line modified. -/
def State.memInv (line : Nat) (s : State) : State :=
  if s.poisoned line then (s.messageDie (homeDie (line * 64))).send (.hostDone line true)
  else
    let s := (s.touchDie (homeDie (line * 64))).onlyHome line
    (s.setHome line { s.home line with host := true, hostMod := true }).send (.hostDone line false)

def execMeminv (s : State) : Out := s.hostRequest .meminv State.memInv

/-- A request of the host for a device line. -/
def hostRequestOf (e : Instr × EvArgs) : Option Nat :=
  match e.1 with
  | .memrd | .memwr | .meminv => some e.2.line
  | _ => none

/-- The host's requests that were held for a back-invalidation of the line: after its response they and the accesses that wait
for it are served in a free order (R411). A 1 in `t` marks them. -/
def State.freeRequests (s : State) (line : Nat) : State :=
  { s with inbox := s.inbox.map fun e => if hostRequestOf e = some line then (e.1, { e.2 with t := 1 }) else e }

/-- BISNP_RESPONSE: modified data is written back, and with `wants` (an answer to BISnpInv) the host holds the line no
longer: the hardware's writes that wait there are performed, which otherwise ask again; what else waited is tried again. -/
def execBisnpResponse (s : State) : Out :=
  let line := s.arg.line
  if !s.bisnp.contains line then .fault .noObject
  else
    let s := (({ s with bisnp := s.bisnp.filter fun l => l ≠ line }).freeRequests line).touchDie (homeDie (line * 64))
    let d := s.arg.data.take 64
    let s := if d = [] || s.poisoned line then s else s.putHome (line * 64) d.length (natOfBytes d)
    let h := s.home line
    let host := h.host && !s.arg.wants
    let s := s.setHome line { h with hostMod := false, host }
    .next (if !host then s.settleLine line else if s.hasDeferred line then s.sendBisnp line true else s)

/-- A host read of an enqueue window (R177): the free entries at 0x40, the refusals at 0x48, zero elsewhere. -/
def State.windowRead (s : State) (q off : Nat) : Dword :=
  if off = 0x40 then BitVec.ofNat 64 ((s.queue q).elim 0 fun k => k.cap - k.entries.length)
  else if off = 0x48 then BitVec.ofNat 64 (aget 0 s.refused q)
  else 0

/-! ### Seams (R399, R400, R421, R422) -/

/-- SEAM_FLIT_REPLAY: `wants`: the replay arrives, a valid flit. Otherwise it fails, and traffic waits at the seam; a seam with
32 failures in a row is lost. -/
def execSeamFlitReplay (s : State) : Out :=
  let d := s.arg.die
  let s := s.modDie d fun e =>
    if 32 ≤ e.replays then e
    else if s.arg.wants then { e with replays := 0, waitFrom := none }
    else { e with replays := e.replays + 1, waitFrom := some (e.waitFrom.getD s.cycle) }
  .next (if (s.die d).replays = 32 then s.post .seamLoss { die := d } else s)

/-- The condition of R400 for the loss of a die's seam: 32 failed replays in a row, or traffic that waits for 2^16 cycles
without a valid flit, counted at the hub. -/
def State.seamGone (s : State) (d : DieNo) : Bool :=
  let e := s.die d
  32 ≤ e.replays || e.waitFrom.any fun t => t + 2 ^ 16 ≤ s.cycle

/-- What was lost: the region, the queue, the record's PC, and the team number of a team record. -/
structure Lost where
  region : BitVec 32
  queue : BitVec 16
  pc : BitVec 56
  team : Option Nat
deriving DecidableEq, Repr

/-- The entries that a die loses: those queued there, its resident tasks, its teams that have not retired. The successor of
a member counts with its team. -/
def State.lostOn (s : State) (d : DieNo) : List Lost :=
  let queued := (s.queues.filter fun k => queueDie k.num = d).flatMap fun k =>
    (k.entries.filter fun e => !e.resume).map fun e =>
      { region := k.region, queue := k.num.setWidth 16, pc := e.pc,
        team := if e.team then some (fld e.fp 0 32 : BitVec 32).toNat else none }
  let tasks := (s.allSlots.filter fun p => dieOf p.1 = d && !p.2.inTeam && (match p.2.st with
      | .starting | .running | .parked | .faulted => true
      | _ => false)).map fun p =>
    { region := p.2.regionH, queue := BitVec.ofNat 16 p.2.taskQueue,
      pc := if p.2.st = .starting then (p.2.recd.elim 0 Rec.pc) else p.2.recPc, team := none }
  let teams := (s.teams.filter fun k => k.die = d).map fun k =>
    { region := k.region, queue := k.queue, pc := k.recPc, team := some k.teamno.toNat }
  queued ++ tasks ++ teams

/-- The combination that one record stands for. -/
def Lost.window (l : Lost) : Lost := { l with team := l.team.map fun t => t / 64 * 64 }

/-- The record of a combination (R422). -/
def State.lossRecord (s : State) (d : DieNo) (all : List Lost) (w : Lost) : Rec :=
  let mine := all.filter fun l => l.window = w
  { w0 := (fld (s.hpcOf w.region) 0 56 : BitVec 56).setWidth 64
    w1 := 0
    key := causeSeamLost.setWidth 64
    arg0 := w.region ++ 0x0000FFFF#32
    arg1 := (d.setWidth 8) ++ w.pc
    arg2 := match w.team with
      | some b => BitVec.ofNat 64 b
      | none => 0xFFFFFFFFFFFFFFFF
    arg3 := match w.team with
      | some _ => mine.foldl (fun m l => m ||| (1#64 <<< (l.team.getD 0 % 64))) 0
      | none => BitVec.ofNat 64 mine.length
    fp := w.queue.setWidth 64 }

/-- A directory entry without a die. -/
def HomeLine.without (h : HomeLine) (d : DieNo) : HomeLine :=
  let bit : BitVec 8 := 1#8 <<< d.toNat
  { h with shr := h.shr &&& ~~~bit, u := h.u &&& ~~~bit, st := if h.st = .modified && h.own = d then .inv else h.st }

/-- The die is gone from the directories; the lines that it held in M or in U copies are POISON. What the host has not been
sent of a POISON line is lost, and so are the copies of the cells on it (R421, R434). -/
def State.poisonDie (s : State) (d : DieNo) : State :=
  let bit : BitVec 8 := 1#8 <<< d.toNat
  let gone := (s.homes.filter fun p =>
    (p.2.st = .modified && p.2.own = d) || p.2.u &&& bit ≠ 0).map Prod.fst
  let bad (line : Nat) : Bool := homeDie (line * 64) = d || gone.contains line
  { s with
    poison := s.poison ++ gone.filter (fun l => !s.poison.contains l)
    homes := s.homes.map (fun p =>
      (p.1, if bad p.1 then { p.2.without d with hostSt := .inv } else p.2.without d))
    slices := s.slices.filter (fun c => c.die ≠ d)
    deferred := s.deferred.filter (fun w => !bad (w.pa / 64))
    cells := s.cells.filter (fun c => c.die ≠ d && !(c.pa < 2 ^ 40 && bad (c.pa / 64)))
    ranges := s.ranges.map (fun r => { r with ucopies := r.ucopies.filter fun u => dieOfCore u.core ≠ d }) }

/-- The waiter is a task of the die's graphics engine. -/
def Waiter.ofGfx (d : DieNo) : Waiter → Bool
  | .gfx e _ _ => e = d
  | .slot _ => false

/-- The work of a lost die ends: its slots, its queues, its graphics engine, the balancer's commands that name it. -/
def State.stopDie (s : State) (d : DieNo) : State :=
  let s := s.killTasks (s.busySlots d)
  let s : State :=
    { s with
      queues := (s.queues.filter fun k => queueDie k.num ≠ d).map (fun k =>
        { k with waiters := k.waiters.filter fun w => !w.ofGfx d })
      migrations := s.migrations.filter (fun m => queueDie m.src ≠ d && m.dst ≠ d) }
  s.modDie d fun e => { e with lost := true, gfx := {}, reqs := [], replays := 0, waitFrom := none }

/-- SEAM_LOSS: where R400's condition holds. -/
def execSeamLoss (s : State) : Out :=
  let d := s.arg.die
  if (s.die d).lost then .next s
  else if !s.seamGone d then .fault .noObject
  else
    let all := s.lostOn d
    let recs := (all.map Lost.window).eraseDups.map fun w => (w.region, s.lossRecord d all w)
    let s := (s.stopDie d).poisonDie d
    .next (recs.foldl (fun s p =>
      if (s.region p.1).isSome then
        s.post .faultRecordEnqueue { wants := true, t := p.1.toNat, data := bytesOfNat 64 p.2.toNat }
      else s) s)

end Sys2Proof.Machine
end

