-- ==== Sys2Proof/Machine/Nasum.lean ====
section
/-! DEFINITION. Bring-up, the command window and its commands, checkpoints, attestation and power (R160 to R163, R173, R220,
R389, R391, R438 to R451). -/

namespace Sys2Proof.Machine

def phaseReady : BitVec 16 := 5
def phaseBooted : BitVec 16 := 6
def phaseOff : BitVec 16 := 7
def phaseFailed : BitVec 16 := 0xFFFF

def State.updNasum (s : State) (f : Nasum → Nasum) : State := { s with nasum := f s.nasum }

/-! ### Bring-up (R438, R447) -/

/-- The next one-time cell is burnt, and its indices are used from the first on. -/
def Nasum.burnCell (n : Nasum) : Nasum :=
  if n.burnt < 1024 then { n with burnt := n.burnt + 1, keyIndex := 1024 * n.burnt } else n

/-- One phase: it passes, or the module has failed. -/
def State.bringPhase (s : State) (k : Nat) : State :=
  if s.nasum.phase = phaseFailed then s
  else if k = 4 then
    let (n, s) := s.draw
    let ports := Config.hostPorts n
    s.updNasum fun m => { m with hostPorts := ports, phase := if ports = 0 then phaseFailed else phaseReady }
  else
    let (n, s) := s.draw
    s.updNasum fun m => { m with phase := if Config.phaseOk n then BitVec.ofNat 16 (k + 1) else phaseFailed }

/-- What outlasts a module reset: the one-time cells, the adapter's safe tier, the host's memory, what was sent. -/
def State.afterReset (s : State) : State :=
  { State.reset with
    nasum := { verCells := s.nasum.verCells, burnt := s.nasum.burnt, keyIndex := s.nasum.keyIndex }
    safe := s.safe
    mem := s.mem.filter fun c => 2 ^ 51 ≤ c.1 && c.1 < 2 ^ 52
    outbox := s.outbox
    drawn := s.drawn }

/-- MODULE_RESET: the phases 1 to 4, up to READY or FAILED. -/
def execModuleReset (s : State) : Out :=
  .next ([1, 2, 3, 4].foldl State.bringPhase (s.afterReset.updNasum Nasum.burnCell))

/-! ### The command window (R440, R441) -/

/-- NSTAT. -/
def Nasum.nstat (n : Nasum) : Dword :=
  BitVec.ofNat 64 (b2n n.busy * 2 ^ 63 + n.tag.toNat * 2 ^ 32 + n.phase.toNat * 2 ^ 16 + n.result.toNat)

def Nasum.arg (n : Nasum) (i : Nat) : Dword := n.narg.toList.getD i 0

/-- The value of a register of the window as the host reads it; NCMD reads 0. -/
def Nasum.read (n : Nasum) (off : Nat) : Dword :=
  if 0x008 ≤ off && off ≤ 0x038 then n.arg ((off - 8) / 8)
  else if off = 0x040 then n.nstat
  else if 0x048 ≤ off && off ≤ 0x078 then n.nres.toList.getD ((off - 0x48) / 8) 0
  else if off = 0x080 then n.nref
  else 0

/-- A refused or completed command: its result code, the NRES registers it writes, and the state. -/
structure NDone where
  code : Nat
  res : List (Nat × Dword) := []
  state : State

/-- A command completes: NRES, then NSTAT with BUSY 0, then MSI-X vector 0. -/
def NDone.finish (d : NDone) : State :=
  (d.state.updNasum fun n =>
    { n with
      nres := d.res.foldl (fun v p => v.setIfInBounds p.1 p.2) n.nres
      result := BitVec.ofNat 16 d.code
      busy := false }).send (.msix 0)

/-- A command: a write of NCMD issues it while BUSY is 0 and counts in NREF while BUSY is 1; once issued it is judged and
performed. `unknown`: the code names no command. -/
def State.ncmd (s : State) (i : Instr) (mine : Nat → Bool) (phase : BitVec 16) (f : State → NDone) : Out :=
  let w := s.arg.v
  if !mine (fld w 0 16).toNat then .fault .noObject
  else if !s.arg.wants then
    if s.nasum.busy then .next (s.updNasum fun n => { n with nref := n.nref + 1 })
    else .next ((s.updNasum fun n => { n with busy := true, tag := fld w 16 16 }).post i { s.arg with wants := true })
  else if !s.nasum.busy then .fault .noObject
  else
    let d : NDone :=
      if s.nasum.phase = phaseFailed then { code := 4, state := s }
      else if fld w 32 32 ≠ 0 then { code := 2, state := s }
      else if 11 < (fld w 0 16).toNat || fld w 0 16 = 0 then { code := 1, state := s }
      else if s.nasum.phase ≠ phase then { code := 4, state := s }
      else f s
    .next d.finish

/-- The command of one code. -/
def State.ncommand (s : State) (i : Instr) (code : Nat) (f : State → NDone) : Out :=
  s.ncmd i (fun c => c = code) (if code = 1 then phaseReady else phaseBooted) f

/-- UNKNOWN_COMMAND_CODE. -/
def execUnknownCommandCode (s : State) : Out :=
  s.ncmd .unknownCommandCode (fun c => c = 0 || 11 < c) phaseBooted fun s => { code := 1, state := s }

/-- NCMD_WRITE_WHILE_BUSY. -/
def execNcmdWriteWhileBusy (s : State) : Out :=
  if s.nasum.busy then .next (s.updNasum fun n => { n with nref := n.nref + 1 }) else .fault .noObject

/-- NARG_WRITE: NARG t takes v unless BUSY is 1. -/
def execNargWrite (s : State) : Out :=
  if s.nasum.busy then .next s
  else .next (s.updNasum fun n => { n with narg := n.narg.setIfInBounds s.arg.t s.arg.v })

/-! ### Host memory and device memory as Nasum reaches them -/

/-- A transfer to or from the host, or the safe tier: result 7 for an address that the host does not have (DESIGN CHOICE,
log 64), else the free outcome. -/
def State.transfer (s : State) (reach : Bool) (f : State → NDone) : NDone :=
  let (n, s') := s.draw
  if reach && Config.transferOk n then f s' else { code := 7, state := s' }

/-- A range of host addresses lies in host memory. -/
def hostOk (a : Dword) (n : Nat) : Bool := a.toNat + n ≤ 2 ^ 51

def State.hostBytes (s : State) (a : Dword) (n : Nat) : List Byte := s.mem.readList (2 ^ 51 + a.toNat) n

/-- Bytes written to host memory: the module keeps no copy of their lines (R410). -/
def State.hostWrite (s : State) (a : Dword) (bs : List Byte) : State :=
  let k := 2 ^ 51 + a.toNat
  let lines := (List.range (bs.length / 64 + 2)).map (· + k / 64)
  let s := lines.foldl (fun s l =>
    if (s.home l).hostSt ≠ .inv && l * 64 < k + bs.length then
      let s := ((s.messageDie (homeDie (l * 64))).onlyHome l).leaveHome l
      s.setHome l { s.home l with hostSt := .inv }
    else s) s
  { s with mem := s.mem.writeList k bs }

/-- Bytes written to device memory, line by line at their homes. -/
def State.devWrite (s : State) (pa : Nat) : Nat → List Byte → State
  | 0, _ => s
  | n + 1, bs =>
    if bs = [] then s
    else
      let k := 64 - pa % 64
      let c := bs.take k
      State.devWrite (s.homeWrite pa c.length (natOfBytes c)) (pa + c.length) n (bs.drop k)

/-- A byte range of device memory. -/
def devOk (pa n : Nat) : Bool := pa + n ≤ 2 ^ 40

def leWord (bs : List Byte) (off n : Nat) : Nat := natOfBytes ((bs.drop off).take n)

/-! ### Regions (R160 to R163, R379) -/

/-- An RCB image, as 32 doublewords. -/
def rcbWord (v : Nat) (i : Nat) : Dword := BitVec.ofNat 64 (v / 2 ^ (64 * i))

/-- A reserved bit of an RCB, or bits 1:0 of HPC, is set. -/
def rcbBad (v : Nat) : Bool :=
  fld (rcbWord v 1) 8 56 ≠ 0 || fld (rcbWord v 3) 48 16 ≠ 0 || fld (rcbWord v 4) 32 32 ≠ 0 || fld (rcbWord v 4) 3 5 ≠ 0
    || fld (rcbWord v 5) 2 62 ≠ 0 || fld (rcbWord v 12) 0 2 ≠ 0 || fld (rcbWord v 13) 52 12 ≠ 0
    || fld (rcbWord v 13) 0 12 ≠ 0 || v / 2 ^ (8 * 0x70) ≠ 0

/-- The MODE field of an RCB. -/
def rcbMode (v : Nat) : BitVec 2 := fld (rcbWord v 5) 0 2

/-- The effective fields of a new region (R161). -/
def regionOf (h : BitVec 32) (rcb v : Nat) (parent : Option Region) : Region :=
  let inh (k : Nat) : Bool := parent.isSome && (rcbWord v 1).getLsbD k
  let p : Region := parent.getD { handle := 0, parent := 0, rcb := 0 }
  { handle := h
    parent := p.handle
    rcb
    budget := if inh 0 then p.budget else fld (rcbWord v 2) 0 32
    tlimit := if inh 1 then p.tlimit else fld (rcbWord v 3) 0 48
    fdom := if inh 2 then p.fdom else fld (rcbWord v 4) 16 16
    weight := if inh 3 then p.weight else fld (rcbWord v 4) 8 8
    prio := if inh 4 then p.prio else fld (rcbWord v 4) 0 3
    mode := if inh 5 then p.mode else rcbMode v
    hpc := if inh 6 then p.hpc else rcbWord v 12
    root := if inh 7 then p.root else rcbWord v 13
    suspended := false }

/-- A region created: HANDLE and zero counters written to the image (R160, R163). -/
def State.addRegion (s : State) (r : Region) : State :=
  let s := ((s.homeWrite (r.rcb + 0x14) 4 r.handle.toNat).homeWrite (r.rcb + 0x30) 16 0).homeWrite (r.rcb + 0x40) 32 0
  { s with regions := s.regions ++ [r], nasum := { s.nasum with nextHandle := s.nasum.nextHandle + 1 } }

def State.newHandle (s : State) : BitVec 32 := BitVec.ofNat 32 s.nasum.nextHandle
def State.noHandle (s : State) : Bool := 2 ^ 32 ≤ s.nasum.nextHandle

/-- REGION_CREATE. The parent is NARG1's alone: the image's PARENT field is neither judged nor written, which R160 and R441
leave open (log 86). -/
def State.regionCreate (s : State) : NDone :=
  let pa := (s.nasum.arg 0).toNat
  let ph := s.nasum.arg 1
  let v := s.peek pa 256
  let parent := if fld ph 32 32 = 0 then s.region (fld ph 0 32) else none
  let r := regionOf s.newHandle pa v parent
  if pa % 256 ≠ 0 || !devOk pa 256 || (ph ≠ 0 && parent.isNone) || rcbBad v || 2 ≤ (rcbMode v).toNat || 2 ≤ r.mode.toNat then
    { code := 2, state := s }
  else if s.noHandle then { code := 5, state := s }
  else { code := 0, res := [(0, r.handle.setWidth 64)], state := s.addRegion r }

def execRegionCreate (s : State) : Out := s.ncommand .regionCreate 3 State.regionCreate

/-- REGION_KILL. -/
def State.regionKill (s : State) : NDone :=
  let h := s.nasum.arg 0
  if fld h 32 32 ≠ 0 || (s.region (fld h 0 32)).isNone then { code := 2, state := s }
  else { code := 0, state := s.killRegion (fld h 0 32) }

def execRegionKill (s : State) : Out := s.ncommand .regionKill 4 State.regionKill

/-! ### Queues (R173, R220, R443) -/

/-- Doubleword i of a descriptor. -/
def descWord (v : Nat) (i : Nat) : Dword := BitVec.ofNat 64 (v / 2 ^ (64 * i))

/-- A bound queue from its descriptor. -/
def queueOf (num : BitVec 12) (v : Nat) : Queue :=
  let a := descWord v 0
  let b := descWord v 1
  let c := descWord v 2
  { num
    region := fld b 0 32
    win := a.getLsbD 29
    migr := a.getLsbD 28
    maxdepth := fld a 20 8
    keyed := a.getLsbD 19
    prio := fld a 16 3
    cap := (fld a 0 16).toNat + 1
    stage := fld b 40 4
    pipe := fld b 32 8
    maxslots := fld c 32 32
    minslots := fld c 0 32
    store := descWord v 3
    quota := (fld c 0 32).toNat }

/-- A descriptor that R173 refuses. -/
def descBad (v : Nat) : Bool :=
  let st := descWord v 3
  fld (descWord v 0) 30 34 ≠ 0 || fld (descWord v 1) 44 20 ≠ 0 || v / 2 ^ 256 ≠ 0 || fld st 0 6 ≠ 0
    || !devOk st.toNat (((fld (descWord v 0) 0 16).toNat + 1) * 64)

/-- The refusal of a bind: 2 or 5, and 0 for none (R220, R443). -/
def State.bindCode (s : State) (num v n : Nat) : Nat :=
  let k := queueOf (BitVec.ofNat 12 num) v
  let d := queueDie k.num
  if 4096 ≤ num || descBad v || (s.region k.region).isNone || (s.queue num).isSome || k.cap < n || (s.die d).lost then 2
  else if pinQueueLimit < s.pinnedQueues d + k.cap * 64 || pinLimit < s.pinned d + k.cap * 64 then 5
  else 0

/-- A bind, and the first n entries of its storage restored as they stand there, with what QSAVE wrote and the host has not yet
made room for (R390, R411): one that is deeper than MAXDEPTH is not judged again, a case that R175 and R443 leave open (log
85). The storage is pinned in the cache of the queue's die (R220). -/
def State.bindQueue (s : State) (num v n : Nat) : State :=
  let k := queueOf (BitVec.ofNat 12 num) v
  let s := { s with queues := s.queues ++ [k] }.fitCache (queueDie k.num)
  (List.range n).foldl (fun s i => s.enqueue k.num (Rec.ofNat (s.peek (k.store.toNat + 64 * i) 64))) s

/-- QUEUE_BIND. -/
def State.queueBind (s : State) : NDone :=
  let num := (s.nasum.arg 0).toNat
  let pa := (s.nasum.arg 1).toNat
  let n := (s.nasum.arg 2).toNat
  let wbase : Dword := 0x10000000000
  if pa = 0 then
    if 4096 ≤ num then { code := 2, state := s }
    else { code := 0, res := [(0, wbase)], state := { s with queues := s.queues.filter fun k => k.num.toNat ≠ num } }
  else if !devOk pa 64 then { code := 2, state := s }
  else
    let v := s.peek pa 64
    let c := s.bindCode num v n
    if c ≠ 0 then { code := c, state := s } else { code := 0, res := [(0, wbase)], state := s.bindQueue num v n }

def execQueueBind (s : State) : Out := s.ncommand .queueBind 5 State.queueBind

/-! ### BOOT (R162, R412, R439, R446) -/

/-- The firmware region and the queues that the firmware binds to it. -/
def State.bootRegion (s : State) : State :=
  let rcb := Config.firmwareRcb % 2 ^ 32 * 256
  let v := natSetBits (natSetBits Config.firmwareImage.toNat 0 64 0) (64 * 5) 64 2
  let s := (s.devWrite rcb 5 (bytesOfNat 256 v)).updNasum fun n => { n with nextHandle := 1 }
  let s := s.addRegion (regionOf 1 rcb v none)
  Config.firmwareQueues.foldl (fun s q =>
    let v := natSetBits q.2.toNat 64 32 1
    if s.bindCode q.1.toNat v 0 = 0 then s.bindQueue q.1.toNat v 0 else s) s

/-- BOOT. -/
def State.boot (s : State) : NDone :=
  let m := s.nasum.arg 0
  if 64 ≤ m.toNat then { code := 2, state := s }
  else
    s.transfer (hostOk (s.nasum.arg 1) 64) fun s =>
      let bs := s.hostBytes (s.nasum.arg 1) 64
      if bs.any fun b => 8 ≤ b.toNat && b ≠ 0xFF then { code := 2, state := s }
      else
        let (n, s) := s.draw
        let route : Vector Byte 64 := Vector.ofFn fun i => bs.getD i.val 0xFF
        let s := s.updNasum fun k => { k with modNo := fld m 0 6, route, ports := Config.peerPorts n }
        let len := Config.firmwareLength (s.nasum.arg 2).toNat
        s.transfer (hostOk (s.nasum.arg 2) len) fun s =>
          let img := s.hostBytes (s.nasum.arg 2) len
          let v := Config.imageVersion img
          if !Config.signatureOk img || v.toNat < s.nasum.verCells.toNat then { code := 3, state := s }
          else
            let s := s.updNasum fun k =>
              { k with phase := phaseBooted, fwDigest := Config.shake256 img, fwVersion := v, verCells := v, imageLog := 0 }
            { code := 0, res := [(0, s.nasum.ports.setWidth 64)], state := s.bootRegion }

def execBoot (s : State) : Out := s.ncommand .boot 1 State.boot

/-! ### IMAGE_LOAD (R162, R442) -/

/-- A refusal of a load: 2, 3 or 5. -/
abbrev Load := Except Nat State

/-- Region entry i of a table block: its RCB goes to `area`; `base` is the first handle of the image. An entry is of MODE 2
where its effective MODE is 2 (R162, log 56). -/
def State.loadRegion (s : State) (signed : Bool) (area base i : Nat) (bs : List Byte) : Load :=
  let p := leWord bs 0 8
  if i < p then .error 2
  else
    let ph := if p = 0 then 1 else base + p - 1
    match s.region (BitVec.ofNat 32 ph) with
    | none => .error 2
    | some parent =>
      let v := natSetBits (natOfBytes bs) 0 64 parent.rcb
      let rcb := area + 256 * i
      let r := regionOf s.newHandle rcb v (some parent)
      if rcbBad v || rcbMode v = 3 then .error 2
      else if r.mode = 2 && !signed then .error 3
      else if s.noHandle then .error 5
      else .ok ((s.devWrite rcb 5 (bytesOfNat 256 v)).addRegion r)

/-- Queue entry i: its descriptor goes to `area`. -/
def State.loadQueue (s : State) (area base n i : Nat) (bs : List Byte) : Load :=
  let v := leWord bs 0 64
  let g := v / 2 ^ 64 % 2 ^ 32
  let num := leWord bs 64 8
  if n ≤ g then .error 2
  else
    let v := natSetBits v 64 32 (base + g)
    match s.bindCode num v 0 with
    | 0 => .ok ((s.devWrite (area + 64 * i) 2 (bytesOfNat 64 v)).bindQueue num v 0)
    | c => .error c

/-- A memory-core program entry: slot, offset and length, 4 bytes each, and 4 zero bytes (log 62). -/
def State.loadProg (s : State) (img bs : List Byte) : Load :=
  let slot := leWord bs 0 4
  let off := leWord bs 4 4
  let len := leWord bs 8 4
  if slot < 3 || 15 < slot || off % 4 ≠ 0 || 4096 < len || img.length < off + len || leWord bs 12 4 ≠ 0 then .error 2
  else
    let w := (List.range ((len + 3) / 4)).map fun i => BitVec.ofNat 32 (leWord ((img.drop off).take len) (4 * i) 4)
    .ok { s with mcprog := aset s.mcprog slot w }

/-- Entries of one kind loaded in order. -/
def loadAll (f : State → Nat → List Byte → Load) (size : Nat) (bs : List Byte) : Nat → Nat → State → Load
  | 0, _, s => .ok s
  | n + 1, i, s =>
    match f s i ((bs.drop (size * i)).take size) with
    | .ok s => loadAll f size bs n (i + 1) s
    | .error c => .error c

/-- The whole load, from the counts on. -/
def State.loadTable (s : State) (img tbl : List Byte) (b nr nq nm : Nat) : Load :=
  let base := s.nasum.nextHandle
  let area := (b + img.length + 4095) / 4096 * 4096
  let signed := Config.signatureOk img
  if !devOk b img.length || !devOk area (256 * nr + 64 * nq) then .error 2
  else
    let s := s.devWrite b (img.length / 64 + 2) img
    (loadAll (fun s i e => s.loadRegion signed area base i e) 256 (tbl.drop 24) nr 0 s).bind fun s =>
      (loadAll (fun s i e => s.loadQueue (area + 256 * nr) base nr i e) 72 (tbl.drop (24 + 256 * nr)) nq 0 s).bind fun s =>
        loadAll (fun s _ e => s.loadProg img e) 16 (tbl.drop (24 + 256 * nr + 72 * nq)) nm 0 s

/-- IMAGE_LOAD. A refusal undoes everything. -/
def State.imageLoad (s : State) : NDone :=
  let len := (s.nasum.arg 1).toNat
  let b := (s.nasum.arg 2).toNat
  let t := s.nasum.arg 3
  if b % 65536 ≠ 0 then { code := 2, state := s }
  else
    s.transfer (hostOk t 24) fun s =>
      let cs := s.hostBytes t 24
      let nr := leWord cs 0 8
      let nq := leWord cs 8 8
      let nm := leWord cs 16 8
      let size := 24 + 256 * nr + 72 * nq + 16 * nm
      if 256 < nr || 4096 < nq || 13 < nm then { code := 2, state := s }
      else
        s.transfer (hostOk t size && hostOk (s.nasum.arg 0) len) fun s =>
          let img := s.hostBytes (s.nasum.arg 0) len
          match s.loadTable img (s.hostBytes t size) b nr nq nm with
          | .error c => { code := c, state := s }
          | .ok s' =>
            let log := Config.shake256 (bytesOfNat 32 s'.nasum.imageLog.toNat ++ bytesOfNat 32 (Config.shake256 img).toNat)
            { code := 0
              res := (if nr = 0 then [] else [(0, BitVec.ofNat 64 s.nasum.nextHandle)])
                ++ [(1, BitVec.ofNat 64 ((b + len + 4095) / 4096 * 4096))]
              state := s'.updNasum fun n => { n with imageLog := log } }

def execImageLoad (s : State) : Out := s.ncommand .imageLoad 2 State.imageLoad

/-! ### CHECKPOINT, RESTORE, SHUTDOWN (R441, R444, R445) -/

/-- The nonzero 32-byte parts of a memory. -/
def Memory.parts (m : Memory) : Nat :=
  (m.foldl (fun (a : Option Nat × Nat) c => if a.1 = some (c.1 / 32) then a else (some (c.1 / 32), a.2 + 1)) (none, 0)).2

/-- The bytes of device memory. -/
def Memory.device (m : Memory) : Memory := m.filter fun c => c.1 < 2 ^ 40

/-- Every host-memory line leaves its proxy home. -/
def State.evictAllHost (s : State) : State :=
  (s.homes.filter fun p => p.2.hostSt ≠ .inv).foldl (fun s p => s.evictHost p.1) s

/-- Every shared cache written back to memory (R444, R445): no home holds a written line, no proxy home a host line. -/
def State.writeBack (s : State) : State :=
  let s := s.evictAllHost
  { s with homes := s.homes.map fun p => (p.1, { p.2 with written := false }) }

/-- CHECKPOINT: 2^32 masks and the nonzero parts, after the shared caches are written back, with the writes of the hardware that
still wait at their homes (R163, R390, R411). -/
def State.checkpoint (s : State) : NDone :=
  let k := (s.nasum.arg 0).toNat
  if 16 ≤ k then { code := 2, state := s }
  else if s.regions.any (fun r => !r.suspended || s.resident r.handle ≠ 0) || s.cmds.any (fun m => !m.stopped) then
    { code := 4, state := s }
  else
    s.transfer true fun s =>
      let s := s.writeBack
      let m := s.settledMem.device
      let (n, s) := s.draw
      { code := 0, res := [(0, BitVec.ofNat 64 (2 ^ 32 + 32 * m.parts)), (1, Config.hubMicros n)],
        state := { s with safe := aset s.safe k m } }

def execCheckpoint (s : State) : Out := s.ncommand .checkpoint 6 State.checkpoint

/-- What a core holds of memory, of translations and of ranges is dropped. -/
def Core.dropCopies (c : Core) : Core := { c with l1 := [], icache := [], tlb := [] }

/-- RESTORE from a checkpoint. -/
def State.restoreFrom (s : State) (m : Memory) : State :=
  let s := s.evictAllHost
  { s with
    mem := m ++ s.mem.filter fun c => 2 ^ 40 ≤ c.1
    core := s.core.dropCopies
    otherCores := s.otherCores.map fun p => (p.1, p.2.dropCopies)
    slices := []
    cells := []
    deferred := []
    ranges := []
    homes := s.homes.map fun p => (p.1, { host := p.2.host, hostMod := p.2.hostMod })
    shapes := s.shapes.map fun p => (p.1, { p.2 with live := false }) }

def State.restore (s : State) : NDone :=
  let k := (s.nasum.arg 0).toNat
  if 16 ≤ k then { code := 2, state := s }
  else if s.regions ≠ [] then { code := 4, state := s }
  else
    s.transfer true fun s =>
      match s.safe.find? fun p => p.1 = k with
      | none => { code := 7, state := s }
      | some p => { code := 0, state := s.restoreFrom p.2 }

def execRestore (s : State) : Out := s.ncommand .restore 7 State.restore

/-- SHUTDOWN: every tree is killed, every shared cache written back, every die is OFF. -/
def State.shutdown (s : State) : NDone :=
  let s := ((s.regions.filter fun r => r.parent = 0).foldl (fun s r => s.killRegion r.handle) s).writeBack
  { code := 0
    state := { s.updNasum fun n => { n with phase := phaseOff } with dies := s.dies.map fun d => { d with power := .off } } }

def execShutdown (s : State) : Out := s.ncommand .shutdown 11 State.shutdown

/-! ### ATTEST (R447, R448) -/

/-- Bytes 0 to 143 of the report. -/
def State.attestBody (s : State) (nonce : List Byte) (idx : Nat) : List Byte :=
  let n := s.nasum
  nonce ++ bytesOfNat 32 Config.romDigest.toNat ++ bytesOfNat 32 n.fwDigest.toNat ++ bytesOfNat 32 n.imageLog.toNat
    ++ bytesOfNat 8 (n.fwVersion.toNat * 2 ^ 32 + n.modNo.toNat) ++ bytesOfNat 8 idx

/-- The whole report: its digest and the signature over the digest follow. -/
def State.attestReport (s : State) (nonce : List Byte) (idx : Nat) : List Byte :=
  let body := s.attestBody nonce idx
  let dig := Config.shake256 body
  let sig := Config.xmssSign dig idx
  body ++ bytesOfNat 32 dig.toNat ++ (List.range 2820).map fun i => sig.getD i 0

/-- The index used: where a block has run out, the next cell is burnt. -/
def Nasum.useIndex (n : Nasum) : Nasum :=
  let m := { n with keyIndex := n.keyIndex + 1 }
  if m.keyIndex = 1024 * m.burnt then m.burnCell else m

def State.attest (s : State) : NDone :=
  if s.nasum.burnt = 1024 then { code := 6, state := s }
  else
    s.transfer (hostOk (s.nasum.arg 0) 32 && hostOk (s.nasum.arg 1) 2996) fun s =>
      let rep := s.attestReport (s.hostBytes (s.nasum.arg 0) 32) s.nasum.keyIndex
      { code := 0, res := [(0, 2996)], state := (s.hostWrite (s.nasum.arg 1) rep).updNasum Nasum.useIndex }

def execAttest (s : State) : Out := s.ncommand .attest 8 State.attest

/-! ### TELEMETRY and power (R449 to R451) -/

def pwrWords (w : Dword) : List Dword :=
  [(fld w 48 16).setWidth 64, (fld w 40 8).setWidth 64, (fld w 8 24).setWidth 64, (fld w 4 3).setWidth 64, (fld w 0 4).setWidth 64]

/-- POWER and TEMP of a PWR value. -/
def pwrSet (w : Dword) (watts : BitVec 16) (temp : BitVec 8) : Dword := setFld (setFld w 48 watts) 40 temp

def Rec.report (r : Rec) : List Dword := [r.key, r.arg0, r.arg1, r.arg2, r.arg3, r.fp]

/-- The sensors of the hub, read. -/
def State.hubSensors (s : State) : State :=
  let (a, s) := s.draw
  let (b, s) := s.draw
  let (c, s) := s.draw
  let (d, s) := s.draw
  s.updNasum fun n =>
    { n with
      hubPwr := pwrSet n.hubPwr (Config.sensor a) (fld (Config.sensor b) 0 8)
      hubMv := (Config.sensor c).setWidth 64
      hubA := (Config.sensor d).setWidth 64 }

/-- The words of the buffer: seven of each die, seven of the hub, the fault reports. -/
def State.telemetryWords (s : State) : List Dword :=
  (s.dies.toList.flatMap fun d => pwrWords d.pwr ++ [d.railMv, d.railA])
    ++ pwrWords s.nasum.hubPwr ++ [s.nasum.hubMv, s.nasum.hubA] ++ s.nasum.reports.flatMap Rec.report

def State.telemetry (s : State) : NDone :=
  s.transfer (hostOk (s.nasum.arg 0) 4096) fun s =>
    let s := s.hubSensors
    { code := 0
      state := s.hostWrite (s.nasum.arg 0) ((s.telemetryWords.flatMap fun w => bytesOfNat 8 w.toNat).take 4096) }

def execTelemetry (s : State) : Out := s.ncommand .telemetry 9 State.telemetry

/-- POWER_REFRESH: the sensors of a die. -/
def execPowerRefresh (s : State) : Out :=
  let d := s.arg.die
  let (a, s) := s.draw
  let (b, s) := s.draw
  let (c, s) := s.draw
  let (k, s) := s.draw
  .next (s.modDie d fun e =>
    { e with
      pwr := pwrSet e.pwr (Config.sensor a) (fld (Config.sensor b) 0 8)
      railMv := (Config.sensor c).setWidth 64
      railA := (Config.sensor k).setWidth 64
      pwrAt := e.cycle })

/-- The die's clock stands at a boundary of 1024 of its cycles, where its level may step (R450). -/
def Die.atBoundary (e : Die) : Bool := e.cycle % 1024 = 0

/-- CLOCK_LEVEL_STEP: at the die's next boundary its level becomes t; a downward step counts in EVENTS, and its cause is v. -/
def execClockLevelStep (s : State) : Out :=
  let e := s.die s.arg.die
  let old := (fld e.pwr 0 4).toNat
  let new := s.arg.t
  if 3 < new || new = old then .fault .noObject
  else if !e.atBoundary then .next (s.post .clockLevelStep s.arg)
  else
    let ev := (fld e.pwr 8 24).toNat
    let w : Dword := setFld e.pwr 0 (BitVec.ofNat 4 new)
    let w := if old < new then
        setFld (setFld w 8 (BitVec.ofNat 24 (min (ev + 1) (2 ^ 24 - 1)))) 4 (fld s.arg.v 0 3)
      else w
    .next (s.setDie s.arg.die { e with pwr := w })

/-- DIE_IDLE: nothing of the die has been in use for 2^20 cycles. -/
def execDieIdle (s : State) : Out :=
  let d := s.arg.die
  if s.canIdle d then .next (s.modDie d fun e => { e with power := .idle }) else .fault .noObject

/-- DIE_WAKE. -/
def execDieWake (s : State) : Out :=
  let d := s.arg.die
  if (s.die d).power = .idle then .next (s.modDie d fun e => { e with power := .active }) else .fault .noObject

/-! ### ENGINE_RESET (R391) -/

/-- The slot's counters and restart point after a reset of engine e: DONE := ISSUED; a plane command that was under way
leaves its step in NEXT. -/
def Slot.resetEngine (t : Slot) (ms : List Cmd) (e : Nat) : Slot :=
  let w := t.ereg e 1
  let i : BitVec 16 := fld w 16 16
  let t := t.setEreg e 1 (i.setWidth 64 <<< 16 ||| i.setWidth 64)
  match if e = 3 then ms.find? fun m => m.eng = 3 && m.peOp = 2 && !m.finished && !m.stopped && m.pos ≠ 0 else none with
  | some m => t.setEreg 3 22 (BitVec.ofNat 64 m.pos)
  | none => t

/-- The commands named by a mask of engines and a mask of dies end, with their entries and invocations. -/
def State.engineResetOn (s : State) (es : BitVec 7) (ds : BitVec 8) : State :=
  let hit (m : Cmd) : Bool := es.getLsbD m.eng.toNat && ds.getLsbD (dieOf m.slot).toNat
  let ended := s.cmds.filter hit
  let ns := (s.allSlots.map Prod.fst).filter fun n => ds.getLsbD (dieOf n).toNat
  let s := { s with cmds := s.cmds.filter fun m => !hit m, mcs := s.mcs.filter fun r => !hit r.cmd }
  let s := ns.foldl (fun s n => s.modSlot n fun t =>
    ((List.range 7).filter fun e => es.getLsbD e).foldl
      (fun t e => t.resetEngine (ended.filter fun m => m.slot = n) e) t) s
  if es.getLsbD 1 then
    let cores := ((s.coreNo :: s.otherCores.map fun p => BitVec.ofNat 13 p.1).filter fun c => ds.getLsbD (dieOfCore c).toNat)
    cores.foldl (fun s c => s.modCore c fun k => { k with sbars := Vector.replicate 16 {} }) s
  else s

def State.engineReset (s : State) : NDone :=
  let es := s.nasum.arg 0
  let ds := s.nasum.arg 1
  if fld es 7 57 ≠ 0 || fld ds 8 56 ≠ 0 then { code := 2, state := s }
  else { code := 0, state := s.engineResetOn (fld es 0 7) (fld ds 0 8) }

def execEngineReset (s : State) : Out := s.ncommand .engineReset 10 State.engineReset

end Sys2Proof.Machine
end

