-- ==== Sys2Proof/Machine/Dispatch.lean ====
section
/-! DEFINITION. The dispatch: one arm per instruction, operation or event, each a direct call of its meaning. -/

namespace Sys2Proof.Machine

def exec (i : Instr) (s : State) : Host.Outcome State Fault Refusal :=
  match i with
  | .addi x1 x2 x3 => Sys2Proof.Machine.execAddi x1 x2 x3 s
  | .andi x1 x2 x3 => Sys2Proof.Machine.execAndi x1 x2 x3 s
  | .ori x1 x2 x3 => Sys2Proof.Machine.execOri x1 x2 x3 s
  | .xori x1 x2 x3 => Sys2Proof.Machine.execXori x1 x2 x3 s
  | .clti x1 x2 x3 => Sys2Proof.Machine.execClti x1 x2 x3 s
  | .cltiu x1 x2 x3 => Sys2Proof.Machine.execCltiu x1 x2 x3 s
  | .slli x1 x2 x3 => Sys2Proof.Machine.execSlli x1 x2 x3 s
  | .srli x1 x2 x3 => Sys2Proof.Machine.execSrli x1 x2 x3 s
  | .srai x1 x2 x3 => Sys2Proof.Machine.execSrai x1 x2 x3 s
  | .rori x1 x2 x3 => Sys2Proof.Machine.execRori x1 x2 x3 s
  | .add x1 x2 x3 => Sys2Proof.Machine.execAdd x1 x2 x3 s
  | .sub x1 x2 x3 => Sys2Proof.Machine.execSub x1 x2 x3 s
  | .and x1 x2 x3 => Sys2Proof.Machine.execAnd x1 x2 x3 s
  | .or x1 x2 x3 => Sys2Proof.Machine.execOr x1 x2 x3 s
  | .xor x1 x2 x3 => Sys2Proof.Machine.execXor x1 x2 x3 s
  | .andn x1 x2 x3 => Sys2Proof.Machine.execAndn x1 x2 x3 s
  | .sll x1 x2 x3 => Sys2Proof.Machine.execSll x1 x2 x3 s
  | .srl x1 x2 x3 => Sys2Proof.Machine.execSrl x1 x2 x3 s
  | .sra x1 x2 x3 => Sys2Proof.Machine.execSra x1 x2 x3 s
  | .ror x1 x2 x3 => Sys2Proof.Machine.execRor x1 x2 x3 s
  | .min x1 x2 x3 => Sys2Proof.Machine.execMin x1 x2 x3 s
  | .minu x1 x2 x3 => Sys2Proof.Machine.execMinu x1 x2 x3 s
  | .max x1 x2 x3 => Sys2Proof.Machine.execMax x1 x2 x3 s
  | .maxu x1 x2 x3 => Sys2Proof.Machine.execMaxu x1 x2 x3 s
  | .mul x1 x2 x3 => Sys2Proof.Machine.execMul x1 x2 x3 s
  | .mulh x1 x2 x3 => Sys2Proof.Machine.execMulh x1 x2 x3 s
  | .mulhu x1 x2 x3 => Sys2Proof.Machine.execMulhu x1 x2 x3 s
  | .mulhsu x1 x2 x3 => Sys2Proof.Machine.execMulhsu x1 x2 x3 s
  | .div x1 x2 x3 => Sys2Proof.Machine.execDiv x1 x2 x3 s
  | .divu x1 x2 x3 => Sys2Proof.Machine.execDivu x1 x2 x3 s
  | .rem x1 x2 x3 => Sys2Proof.Machine.execRem x1 x2 x3 s
  | .remu x1 x2 x3 => Sys2Proof.Machine.execRemu x1 x2 x3 s
  | .clz x1 x2 => Sys2Proof.Machine.execClz x1 x2 s
  | .ctz x1 x2 => Sys2Proof.Machine.execCtz x1 x2 s
  | .popc x1 x2 => Sys2Proof.Machine.execPopc x1 x2 s
  | .bswap x1 x2 => Sys2Proof.Machine.execBswap x1 x2 s
  | .bilv2 x1 x2 x3 => Sys2Proof.Machine.execBilv2 x1 x2 x3 s
  | .bilv3 x1 x2 x3 => Sys2Proof.Machine.execBilv3 x1 x2 x3 s
  | .bext2 x1 x2 x3 => Sys2Proof.Machine.execBext2 x1 x2 x3 s
  | .bext3 x1 x2 x3 => Sys2Proof.Machine.execBext3 x1 x2 x3 s
  | .ceq x1 x2 x3 => Sys2Proof.Machine.execCeq x1 x2 x3 s
  | .cne x1 x2 x3 => Sys2Proof.Machine.execCne x1 x2 x3 s
  | .clt x1 x2 x3 => Sys2Proof.Machine.execClt x1 x2 x3 s
  | .cge x1 x2 x3 => Sys2Proof.Machine.execCge x1 x2 x3 s
  | .cltu x1 x2 x3 => Sys2Proof.Machine.execCltu x1 x2 x3 s
  | .cgeu x1 x2 x3 => Sys2Proof.Machine.execCgeu x1 x2 x3 s
  | .fadd x1 x2 x3 x4 x5 => Sys2Proof.Machine.execFadd x1 x2 x3 x4 x5 s
  | .fsub x1 x2 x3 x4 x5 => Sys2Proof.Machine.execFsub x1 x2 x3 x4 x5 s
  | .fmul x1 x2 x3 x4 x5 => Sys2Proof.Machine.execFmul x1 x2 x3 x4 x5 s
  | .fdiv x1 x2 x3 x4 x5 => Sys2Proof.Machine.execFdiv x1 x2 x3 x4 x5 s
  | .fsqrt x1 x2 x3 x4 => Sys2Proof.Machine.execFsqrt x1 x2 x3 x4 s
  | .fmin x1 x2 x3 x4 => Sys2Proof.Machine.execFmin x1 x2 x3 x4 s
  | .fmax x1 x2 x3 x4 => Sys2Proof.Machine.execFmax x1 x2 x3 x4 s
  | .fmac x1 x2 x3 x4 x5 => Sys2Proof.Machine.execFmac x1 x2 x3 x4 x5 s
  | .fnmac x1 x2 x3 x4 x5 => Sys2Proof.Machine.execFnmac x1 x2 x3 x4 x5 s
  | .fceq x1 x2 x3 x4 => Sys2Proof.Machine.execFceq x1 x2 x3 x4 s
  | .fclt x1 x2 x3 x4 => Sys2Proof.Machine.execFclt x1 x2 x3 x4 s
  | .fcle x1 x2 x3 x4 => Sys2Proof.Machine.execFcle x1 x2 x3 x4 s
  | .fcvtf x1 x2 x3 x4 x5 => Sys2Proof.Machine.execFcvtf x1 x2 x3 x4 x5 s
  | .fcvtt x1 x2 x3 x4 x5 => Sys2Proof.Machine.execFcvtt x1 x2 x3 x4 x5 s
  | .fclass x1 x2 x3 => Sys2Proof.Machine.execFclass x1 x2 x3 s
  | .li x1 x2 => Sys2Proof.Machine.execLi x1 x2 s
  | .lis x1 x2 => Sys2Proof.Machine.execLis x1 x2 s
  | .pcseg x1 x2 => Sys2Proof.Machine.execPcseg x1 x2 s
  | .ins16 x1 x2 x3 => Sys2Proof.Machine.execIns16 x1 x2 x3 s
  | .beq x1 x2 x3 => Sys2Proof.Machine.execBeq x1 x2 x3 s
  | .bne x1 x2 x3 => Sys2Proof.Machine.execBne x1 x2 x3 s
  | .blt x1 x2 x3 => Sys2Proof.Machine.execBlt x1 x2 x3 s
  | .bge x1 x2 x3 => Sys2Proof.Machine.execBge x1 x2 x3 s
  | .bltu x1 x2 x3 => Sys2Proof.Machine.execBltu x1 x2 x3 s
  | .bgeu x1 x2 x3 => Sys2Proof.Machine.execBgeu x1 x2 x3 s
  | .bfs x1 x2 => Sys2Proof.Machine.execBfs x1 x2 s
  | .bfc x1 x2 => Sys2Proof.Machine.execBfc x1 x2 s
  | .j x1 => Sys2Proof.Machine.execJ x1 s
  | .jalr x1 x2 x3 => Sys2Proof.Machine.execJalr x1 x2 x3 s
  | .lcount x1 x2 => Sys2Proof.Machine.execLcount x1 x2 s
  | .lstride x1 x2 x3 => Sys2Proof.Machine.execLstride x1 x2 x3 s
  | .ldB x1 x2 x3 x4 => Sys2Proof.Machine.execLdB x1 x2 x3 x4 s
  | .ldBu x1 x2 x3 x4 => Sys2Proof.Machine.execLdBu x1 x2 x3 x4 s
  | .ldH x1 x2 x3 x4 => Sys2Proof.Machine.execLdH x1 x2 x3 x4 s
  | .ldHu x1 x2 x3 x4 => Sys2Proof.Machine.execLdHu x1 x2 x3 x4 s
  | .ldW x1 x2 x3 x4 => Sys2Proof.Machine.execLdW x1 x2 x3 x4 s
  | .ldWu x1 x2 x3 x4 => Sys2Proof.Machine.execLdWu x1 x2 x3 x4 s
  | .ldD x1 x2 x3 x4 => Sys2Proof.Machine.execLdD x1 x2 x3 x4 s
  | .stB x1 x2 x3 x4 => Sys2Proof.Machine.execStB x1 x2 x3 x4 s
  | .stH x1 x2 x3 x4 => Sys2Proof.Machine.execStH x1 x2 x3 x4 s
  | .stW x1 x2 x3 x4 => Sys2Proof.Machine.execStW x1 x2 x3 x4 s
  | .stD x1 x2 x3 x4 => Sys2Proof.Machine.execStD x1 x2 x3 x4 s
  | .stq x1 x2 x3 x4 => Sys2Proof.Machine.execStq x1 x2 x3 x4 s
  | .stqV x1 x2 x3 x4 => Sys2Proof.Machine.execStqV x1 x2 x3 x4 s
  | .amoLd x1 x2 x3 x4 x5 x6 x7 => Sys2Proof.Machine.execAmoLd x1 x2 x3 x4 x5 x6 x7 s
  | .amoSt x1 x2 x3 x4 x5 x6 x7 => Sys2Proof.Machine.execAmoSt x1 x2 x3 x4 x5 x6 x7 s
  | .amoSwap x1 x2 x3 x4 x5 x6 x7 => Sys2Proof.Machine.execAmoSwap x1 x2 x3 x4 x5 x6 x7 s
  | .amoCas x1 x2 x3 x4 x5 x6 x7 => Sys2Proof.Machine.execAmoCas x1 x2 x3 x4 x5 x6 x7 s
  | .amoAdd x1 x2 x3 x4 x5 x6 x7 => Sys2Proof.Machine.execAmoAdd x1 x2 x3 x4 x5 x6 x7 s
  | .amoAnd x1 x2 x3 x4 x5 x6 x7 => Sys2Proof.Machine.execAmoAnd x1 x2 x3 x4 x5 x6 x7 s
  | .amoOr x1 x2 x3 x4 x5 x6 x7 => Sys2Proof.Machine.execAmoOr x1 x2 x3 x4 x5 x6 x7 s
  | .amoXor x1 x2 x3 x4 x5 x6 x7 => Sys2Proof.Machine.execAmoXor x1 x2 x3 x4 x5 x6 x7 s
  | .amoMin x1 x2 x3 x4 x5 x6 x7 => Sys2Proof.Machine.execAmoMin x1 x2 x3 x4 x5 x6 x7 s
  | .amoMax x1 x2 x3 x4 x5 x6 x7 => Sys2Proof.Machine.execAmoMax x1 x2 x3 x4 x5 x6 x7 s
  | .amoMinu x1 x2 x3 x4 x5 x6 x7 => Sys2Proof.Machine.execAmoMinu x1 x2 x3 x4 x5 x6 x7 s
  | .amoMaxu x1 x2 x3 x4 x5 x6 x7 => Sys2Proof.Machine.execAmoMaxu x1 x2 x3 x4 x5 x6 x7 s
  | .vamoLd x1 x2 x3 x4 x5 x6 x7 => Sys2Proof.Machine.execVamoLd x1 x2 x3 x4 x5 x6 x7 s
  | .vamoSt x1 x2 x3 x4 x5 x6 x7 => Sys2Proof.Machine.execVamoSt x1 x2 x3 x4 x5 x6 x7 s
  | .vamoSwap x1 x2 x3 x4 x5 x6 x7 => Sys2Proof.Machine.execVamoSwap x1 x2 x3 x4 x5 x6 x7 s
  | .vamoCas x1 x2 x3 x4 x5 x6 x7 => Sys2Proof.Machine.execVamoCas x1 x2 x3 x4 x5 x6 x7 s
  | .vamoAdd x1 x2 x3 x4 x5 x6 x7 => Sys2Proof.Machine.execVamoAdd x1 x2 x3 x4 x5 x6 x7 s
  | .vamoAnd x1 x2 x3 x4 x5 x6 x7 => Sys2Proof.Machine.execVamoAnd x1 x2 x3 x4 x5 x6 x7 s
  | .vamoOr x1 x2 x3 x4 x5 x6 x7 => Sys2Proof.Machine.execVamoOr x1 x2 x3 x4 x5 x6 x7 s
  | .vamoXor x1 x2 x3 x4 x5 x6 x7 => Sys2Proof.Machine.execVamoXor x1 x2 x3 x4 x5 x6 x7 s
  | .vamoMin x1 x2 x3 x4 x5 x6 x7 => Sys2Proof.Machine.execVamoMin x1 x2 x3 x4 x5 x6 x7 s
  | .vamoMax x1 x2 x3 x4 x5 x6 x7 => Sys2Proof.Machine.execVamoMax x1 x2 x3 x4 x5 x6 x7 s
  | .vamoMinu x1 x2 x3 x4 x5 x6 x7 => Sys2Proof.Machine.execVamoMinu x1 x2 x3 x4 x5 x6 x7 s
  | .vamoMaxu x1 x2 x3 x4 x5 x6 x7 => Sys2Proof.Machine.execVamoMaxu x1 x2 x3 x4 x5 x6 x7 s
  | .vcfg x1 x2 x3 x4 => Sys2Proof.Machine.execVcfg x1 x2 x3 x4 s
  | .vtag x1 x2 => Sys2Proof.Machine.execVtag x1 x2 s
  | .vgetx x1 x2 x3 => Sys2Proof.Machine.execVgetx x1 x2 x3 s
  | .vsetx x1 x2 x3 => Sys2Proof.Machine.execVsetx x1 x2 x3 s
  | .vbcast x1 x2 x3 => Sys2Proof.Machine.execVbcast x1 x2 x3 s
  | .vid x1 x2 => Sys2Proof.Machine.execVid x1 x2 s
  | .vadd x1 x2 x3 x4 x5 => Sys2Proof.Machine.execVadd x1 x2 x3 x4 x5 s
  | .vsub x1 x2 x3 x4 x5 => Sys2Proof.Machine.execVsub x1 x2 x3 x4 x5 s
  | .vmul x1 x2 x3 x4 x5 => Sys2Proof.Machine.execVmul x1 x2 x3 x4 x5 s
  | .vmac x1 x2 x3 x4 x5 => Sys2Proof.Machine.execVmac x1 x2 x3 x4 x5 s
  | .vmin x1 x2 x3 x4 x5 => Sys2Proof.Machine.execVmin x1 x2 x3 x4 x5 s
  | .vmax x1 x2 x3 x4 x5 => Sys2Proof.Machine.execVmax x1 x2 x3 x4 x5 s
  | .vdiv x1 x2 x3 x4 x5 => Sys2Proof.Machine.execVdiv x1 x2 x3 x4 x5 s
  | .vsqrt x1 x2 x3 x4 => Sys2Proof.Machine.execVsqrt x1 x2 x3 x4 s
  | .vabs x1 x2 x3 x4 => Sys2Proof.Machine.execVabs x1 x2 x3 x4 s
  | .vneg x1 x2 x3 x4 => Sys2Proof.Machine.execVneg x1 x2 x3 x4 s
  | .vnot x1 x2 x3 x4 => Sys2Proof.Machine.execVnot x1 x2 x3 x4 s
  | .vclz x1 x2 x3 x4 => Sys2Proof.Machine.execVclz x1 x2 x3 x4 s
  | .vpopc x1 x2 x3 x4 => Sys2Proof.Machine.execVpopc x1 x2 x3 x4 s
  | .vbilv2 x1 x2 x3 x4 => Sys2Proof.Machine.execVbilv2 x1 x2 x3 x4 s
  | .vbext2 x1 x2 x3 x4 => Sys2Proof.Machine.execVbext2 x1 x2 x3 x4 s
  | .vmov x1 x2 x3 x4 => Sys2Proof.Machine.execVmov x1 x2 x3 x4 s
  | .vceq x1 x2 x3 x4 x5 => Sys2Proof.Machine.execVceq x1 x2 x3 x4 x5 s
  | .vcne x1 x2 x3 x4 x5 => Sys2Proof.Machine.execVcne x1 x2 x3 x4 x5 s
  | .vclt x1 x2 x3 x4 x5 => Sys2Proof.Machine.execVclt x1 x2 x3 x4 x5 s
  | .vcle x1 x2 x3 x4 x5 => Sys2Proof.Machine.execVcle x1 x2 x3 x4 x5 s
  | .vcun x1 x2 x3 x4 x5 => Sys2Proof.Machine.execVcun x1 x2 x3 x4 x5 s
  | .vctst x1 x2 x3 x4 x5 => Sys2Proof.Machine.execVctst x1 x2 x3 x4 x5 s
  | .vcvt x1 x2 x3 x4 x5 x6 => Sys2Proof.Machine.execVcvt x1 x2 x3 x4 x5 x6 s
  | .vand x1 x2 x3 x4 x5 => Sys2Proof.Machine.execVand x1 x2 x3 x4 x5 s
  | .vor x1 x2 x3 x4 x5 => Sys2Proof.Machine.execVor x1 x2 x3 x4 x5 s
  | .vxor x1 x2 x3 x4 x5 => Sys2Proof.Machine.execVxor x1 x2 x3 x4 x5 s
  | .vshl x1 x2 x3 x4 x5 => Sys2Proof.Machine.execVshl x1 x2 x3 x4 x5 s
  | .vshr x1 x2 x3 x4 x5 => Sys2Proof.Machine.execVshr x1 x2 x3 x4 x5 s
  | .vperm x1 x2 x3 x4 => Sys2Proof.Machine.execVperm x1 x2 x3 x4 s
  | .vslide x1 x2 x3 x4 => Sys2Proof.Machine.execVslide x1 x2 x3 x4 s
  | .vredsum x1 x2 x3 => Sys2Proof.Machine.execVredsum x1 x2 x3 s
  | .vredmin x1 x2 x3 => Sys2Proof.Machine.execVredmin x1 x2 x3 s
  | .vredmax x1 x2 x3 => Sys2Proof.Machine.execVredmax x1 x2 x3 s
  | .vredand x1 x2 x3 => Sys2Proof.Machine.execVredand x1 x2 x3 s
  | .vredor x1 x2 x3 => Sys2Proof.Machine.execVredor x1 x2 x3 s
  | .vredxor x1 x2 x3 => Sys2Proof.Machine.execVredxor x1 x2 x3 s
  | .vmatch x1 x2 x3 => Sys2Proof.Machine.execVmatch x1 x2 x3 s
  | .vexpand x1 x2 x3 => Sys2Proof.Machine.execVexpand x1 x2 x3 s
  | .vcompress x1 x2 x3 => Sys2Proof.Machine.execVcompress x1 x2 x3 s
  | .vunpack x1 x2 x3 => Sys2Proof.Machine.execVunpack x1 x2 x3 s
  | .vrev x1 x2 x3 => Sys2Proof.Machine.execVrev x1 x2 x3 s
  | .vld x1 x2 x3 x4 => Sys2Proof.Machine.execVld x1 x2 x3 x4 s
  | .vlds x1 x2 x3 x4 x5 => Sys2Proof.Machine.execVlds x1 x2 x3 x4 x5 s
  | .vldx x1 x2 x3 x4 x5 => Sys2Proof.Machine.execVldx x1 x2 x3 x4 x5 s
  | .vldl x1 x2 x3 x4 x5 => Sys2Proof.Machine.execVldl x1 x2 x3 x4 x5 s
  | .vst x1 x2 x3 x4 => Sys2Proof.Machine.execVst x1 x2 x3 x4 s
  | .vsts x1 x2 x3 x4 x5 => Sys2Proof.Machine.execVsts x1 x2 x3 x4 x5 s
  | .vstx x1 x2 x3 x4 x5 => Sys2Proof.Machine.execVstx x1 x2 x3 x4 x5 s
  | .vstl x1 x2 x3 x4 x5 => Sys2Proof.Machine.execVstl x1 x2 x3 x4 x5 s
  | .emit x1 x2 x3 => Sys2Proof.Machine.execEmit x1 x2 x3 s
  | .launch x1 x2 x3 => Sys2Proof.Machine.execLaunch x1 x2 x3 s
  | .suspend x1 x2 x3 => Sys2Proof.Machine.execSuspend x1 x2 x3 s
  | .yield x1 => Sys2Proof.Machine.execYield x1 s
  | .penq x1 x2 x3 => Sys2Proof.Machine.execPenq x1 x2 x3 s
  | .waita x1 x2 x3 x4 x5 => Sys2Proof.Machine.execWaita x1 x2 x3 x4 x5 s
  | .vwait x1 x2 x3 x4 x5 => Sys2Proof.Machine.execVwait x1 x2 x3 x4 x5 s
  | .barArrive x1 x2 => Sys2Proof.Machine.execBarArrive x1 x2 s
  | .barWait x1 x2 => Sys2Proof.Machine.execBarWait x1 x2 s
  | .barSync x1 => Sys2Proof.Machine.execBarSync x1 s
  | .lkstall x1 x2 => Sys2Proof.Machine.execLkstall x1 x2 s
  | .lkstallc x1 x2 => Sys2Proof.Machine.execLkstallc x1 x2 s
  | .lkcount x1 x2 => Sys2Proof.Machine.execLkcount x1 x2 s
  | .fence x1 x2 => Sys2Proof.Machine.execFence x1 x2 s
  | .fenceAll x1 => Sys2Proof.Machine.execFenceAll x1 s
  | .cellPropose x1 x2 x3 => Sys2Proof.Machine.execCellPropose x1 x2 x3 s
  | .cellRead x1 x2 => Sys2Proof.Machine.execCellRead x1 x2 s
  | .cellRecycle x1 x2 => Sys2Proof.Machine.execCellRecycle x1 x2 s
  | .shapeSeal x1 x2 => Sys2Proof.Machine.execShapeSeal x1 x2 s
  | .shapeFence x1 x2 => Sys2Proof.Machine.execShapeFence x1 x2 s
  | .shapeDrop x1 x2 => Sys2Proof.Machine.execShapeDrop x1 x2 s
  | .crange x1 x2 => Sys2Proof.Machine.execCrange x1 x2 s
  | .crangeDrop x1 x2 => Sys2Proof.Machine.execCrangeDrop x1 x2 s
  | .vrred x1 x2 x3 x4 => Sys2Proof.Machine.execVrred x1 x2 x3 x4 s
  | .stBits x1 x2 x3 => Sys2Proof.Machine.execStBits x1 x2 x3 s
  | .mqCopy x1 x2 => Sys2Proof.Machine.execMqCopy x1 x2 s
  | .sbArm x1 x2 => Sys2Proof.Machine.execSbArm x1 x2 s
  | .sbWait x1 => Sys2Proof.Machine.execSbWait x1 s
  | .sbReset x1 => Sys2Proof.Machine.execSbReset x1 s
  | .sbState x1 x2 => Sys2Proof.Machine.execSbState x1 x2 s
  | .sbCount x1 x2 => Sys2Proof.Machine.execSbCount x1 x2 s
  | .slLoad x1 x2 => Sys2Proof.Machine.execSlLoad x1 x2 s
  | .peClear x1 x2 => Sys2Proof.Machine.execPeClear x1 x2 s
  | .peLoad x1 x2 => Sys2Proof.Machine.execPeLoad x1 x2 s
  | .peMma x1 x2 => Sys2Proof.Machine.execPeMma x1 x2 s
  | .peStore x1 x2 => Sys2Proof.Machine.execPeStore x1 x2 s
  | .ceRun x1 => Sys2Proof.Machine.execCeRun x1 s
  | .gxCommit x1 x2 x3 => Sys2Proof.Machine.execGxCommit x1 x2 x3 s
  | .eregW x1 x2 x3 => Sys2Proof.Machine.execEregW x1 x2 x3 s
  | .eregR x1 x2 x3 => Sys2Proof.Machine.execEregR x1 x2 x3 s
  | .texSmp x1 x2 x3 x4 => Sys2Proof.Machine.execTexSmp x1 x2 x3 x4 s
  | .texGrad x1 x2 x3 x4 => Sys2Proof.Machine.execTexGrad x1 x2 x3 x4 s
  | .texFetch x1 x2 x3 x4 => Sys2Proof.Machine.execTexFetch x1 x2 x3 x4 s
  | .rbox x1 x2 x3 x4 => Sys2Proof.Machine.execRbox x1 x2 x3 x4 s
  | .rtri x1 x2 x3 x4 => Sys2Proof.Machine.execRtri x1 x2 x3 x4 s
  | .vmm x1 x2 x3 x4 => Sys2Proof.Machine.execVmm x1 x2 x3 x4 s
  | .crr x1 x2 => Sys2Proof.Machine.execCrr x1 x2 s
  | .crw x1 x2 x3 => Sys2Proof.Machine.execCrw x1 x2 x3 s
  | .crs x1 x2 x3 => Sys2Proof.Machine.execCrs x1 x2 x3 s
  | .crc x1 x2 x3 => Sys2Proof.Machine.execCrc x1 x2 x3 s
  | .pfx x1 x2 x3 x4 x5 x6 x7 => Sys2Proof.Machine.execPfx x1 x2 x3 x4 x5 x6 x7 s
  | .mcAdd x1 x2 x3 => Sys2Proof.Machine.execMcAdd x1 x2 x3 s
  | .mcSub x1 x2 x3 => Sys2Proof.Machine.execMcSub x1 x2 x3 s
  | .mcAnd x1 x2 x3 => Sys2Proof.Machine.execMcAnd x1 x2 x3 s
  | .mcOr x1 x2 x3 => Sys2Proof.Machine.execMcOr x1 x2 x3 s
  | .mcXor x1 x2 x3 => Sys2Proof.Machine.execMcXor x1 x2 x3 s
  | .mcShl x1 x2 x3 => Sys2Proof.Machine.execMcShl x1 x2 x3 s
  | .mcShr x1 x2 x3 => Sys2Proof.Machine.execMcShr x1 x2 x3 s
  | .mcMul x1 x2 x3 => Sys2Proof.Machine.execMcMul x1 x2 x3 s
  | .mcAddi x1 x2 x3 => Sys2Proof.Machine.execMcAddi x1 x2 x3 s
  | .mcShli x1 x2 x3 => Sys2Proof.Machine.execMcShli x1 x2 x3 s
  | .mcB x1 x2 x3 x4 => Sys2Proof.Machine.execMcB x1 x2 x3 x4 s
  | .mcRd x1 x2 x3 => Sys2Proof.Machine.execMcRd x1 x2 x3 s
  | .mcWr x1 x2 x3 => Sys2Proof.Machine.execMcWr x1 x2 x3 s
  | .mcLdb x1 x2 x3 => Sys2Proof.Machine.execMcLdb x1 x2 x3 s
  | .mcStb x1 x2 x3 => Sys2Proof.Machine.execMcStb x1 x2 x3 s
  | .mcElem x1 x2 x3 => Sys2Proof.Machine.execMcElem x1 x2 x3 s
  | .loop => Sys2Proof.Machine.execLoop s
  | .done => Sys2Proof.Machine.execDone s
  | .penqReply => Sys2Proof.Machine.execPenqReply s
  | .penqTimeout => Sys2Proof.Machine.execPenqTimeout s
  | .waitWake => Sys2Proof.Machine.execWaitWake s
  | .barWaitResume => Sys2Proof.Machine.execBarWaitResume s
  | .linkParkedIssue => Sys2Proof.Machine.execLinkParkedIssue s
  | .cellRecycleReleaseDone => Sys2Proof.Machine.execCellRecycleReleaseDone s
  | .sbWaitResume => Sys2Proof.Machine.execSbWaitResume s
  | .slLoadRow => Sys2Proof.Machine.execSlLoadRow s
  | .peMmaStep => Sys2Proof.Machine.execPeMmaStep s
  | .peTileStep => Sys2Proof.Machine.execPeTileStep s
  | .chainStep => Sys2Proof.Machine.execChainStep s
  | .gxState => Sys2Proof.Machine.execGxState s
  | .gxPrim => Sys2Proof.Machine.execGxPrim s
  | .binnerRecord => Sys2Proof.Machine.execBinnerRecord s
  | .gxFlush => Sys2Proof.Machine.execGxFlush s
  | .gxEnd => Sys2Proof.Machine.execGxEnd s
  | .tileReplay => Sys2Proof.Machine.execTileReplay s
  | .resolverTileStart => Sys2Proof.Machine.execResolverTileStart s
  | .visibilityFinal => Sys2Proof.Machine.execVisibilityFinal s
  | .translucentTaskEmit => Sys2Proof.Machine.execTranslucentTaskEmit s
  | .commitPerform => Sys2Proof.Machine.execCommitPerform s
  | .tileSlotRelease => Sys2Proof.Machine.execTileSlotRelease s
  | .bvBuild => Sys2Proof.Machine.execBvBuild s
  | .buildItem => Sys2Proof.Machine.execBuildItem s
  | .engineCommandComplete => Sys2Proof.Machine.execEngineCommandComplete s
  | .engineFault => Sys2Proof.Machine.execEngineFault s
  | .mqCopyPiece => Sys2Proof.Machine.execMqCopyPiece s
  | .mcInvocation => Sys2Proof.Machine.execMcInvocation s
  | .sys => Sys2Proof.Machine.execSys s
  | .brk => Sys2Proof.Machine.execBrk s
  | .tret => Sys2Proof.Machine.execTret s
  | .vlmaxpWrite => Sys2Proof.Machine.execVlmaxpWrite s
  | .fresRetry => Sys2Proof.Machine.execFresRetry s
  | .fresReissue => Sys2Proof.Machine.execFresReissue s
  | .fresKill => Sys2Proof.Machine.execFresKill s
  | .fresExtend => Sys2Proof.Machine.execFresExtend s
  | .rctlResume => Sys2Proof.Machine.execRctlResume s
  | .rctlSuspend => Sys2Proof.Machine.execRctlSuspend s
  | .rctlKill => Sys2Proof.Machine.execRctlKill s
  | .qsave => Sys2Proof.Machine.execQsave s
  | .tlbinvPage => Sys2Proof.Machine.execTlbinvPage s
  | .tlbinvAll => Sys2Proof.Machine.execTlbinvAll s
  | .mcEnd => Sys2Proof.Machine.execMcEnd s
  | .dispatchGrant => Sys2Proof.Machine.execDispatchGrant s
  | .pickUp => Sys2Proof.Machine.execPickUp s
  | .slotRetirement => Sys2Proof.Machine.execSlotRetirement s
  | .queueRoomResume => Sys2Proof.Machine.execQueueRoomResume s
  | .taskLimit => Sys2Proof.Machine.execTaskLimit s
  | .stageGovernorEvaluation => Sys2Proof.Machine.execStageGovernorEvaluation s
  | .balancerCycle => Sys2Proof.Machine.execBalancerCycle s
  | .migrationCommand => Sys2Proof.Machine.execMigrationCommand s
  | .windowEnqueue => Sys2Proof.Machine.execWindowEnqueue s
  | .clktsTick => Sys2Proof.Machine.execClktsTick s
  | .localTrapEntry => Sys2Proof.Machine.execLocalTrapEntry s
  | .faultDomainDelivery => Sys2Proof.Machine.execFaultDomainDelivery s
  | .faultRecordEnqueue => Sys2Proof.Machine.execFaultRecordEnqueue s
  | .pageWalk => Sys2Proof.Machine.execPageWalk s
  | .sliceEviction => Sys2Proof.Machine.execSliceEviction s
  | .lineFill => Sys2Proof.Machine.execLineFill s
  | .lineWriteback => Sys2Proof.Machine.execLineWriteback s
  | .homeRead => Sys2Proof.Machine.execHomeRead s
  | .homeUpgrade => Sys2Proof.Machine.execHomeUpgrade s
  | .sliceInvalidation => Sys2Proof.Machine.execSliceInvalidation s
  | .dtRiseReport => Sys2Proof.Machine.execDtRiseReport s
  | .seamFlitReplay => Sys2Proof.Machine.execSeamFlitReplay s
  | .seamLoss => Sys2Proof.Machine.execSeamLoss s
  | .snpinv => Sys2Proof.Machine.execSnpinv s
  | .snpdata => Sys2Proof.Machine.execSnpdata s
  | .snpcur => Sys2Proof.Machine.execSnpcur s
  | .memrd => Sys2Proof.Machine.execMemrd s
  | .memwr => Sys2Proof.Machine.execMemwr s
  | .meminv => Sys2Proof.Machine.execMeminv s
  | .bisnpResponse => Sys2Proof.Machine.execBisnpResponse s
  | .peerAccessPacket => Sys2Proof.Machine.execPeerAccessPacket s
  | .remoteReducePacket => Sys2Proof.Machine.execRemoteReducePacket s
  | .dieIdle => Sys2Proof.Machine.execDieIdle s
  | .dieWake => Sys2Proof.Machine.execDieWake s
  | .clockLevelStep => Sys2Proof.Machine.execClockLevelStep s
  | .moduleReset => Sys2Proof.Machine.execModuleReset s
  | .boot => Sys2Proof.Machine.execBoot s
  | .imageLoad => Sys2Proof.Machine.execImageLoad s
  | .regionCreate => Sys2Proof.Machine.execRegionCreate s
  | .regionKill => Sys2Proof.Machine.execRegionKill s
  | .queueBind => Sys2Proof.Machine.execQueueBind s
  | .checkpoint => Sys2Proof.Machine.execCheckpoint s
  | .restore => Sys2Proof.Machine.execRestore s
  | .attest => Sys2Proof.Machine.execAttest s
  | .telemetry => Sys2Proof.Machine.execTelemetry s
  | .engineReset => Sys2Proof.Machine.execEngineReset s
  | .shutdown => Sys2Proof.Machine.execShutdown s
  | .nargWrite => Sys2Proof.Machine.execNargWrite s
  | .ncmdWriteWhileBusy => Sys2Proof.Machine.execNcmdWriteWhileBusy s
  | .unknownCommandCode => Sys2Proof.Machine.execUnknownCommandCode s
  | .proxyHomeLineFill => Sys2Proof.Machine.execProxyHomeLineFill s
  | .acknowledgementReturn => Sys2Proof.Machine.execAcknowledgementReturn s
  | .packetForwarding => Sys2Proof.Machine.execPacketForwarding s
  | .powerRefresh => Sys2Proof.Machine.execPowerRefresh s

end Sys2Proof.Machine
end

