-- ==== Sys2Proof/Machine/Turn.lean ====
section
/-! DEFINITION. One step of the module: which of its agents acts, and how a slot or a memory core fetches, decodes, runs and
moves on (R24, R28, R31, R86, R159, R172, R191, R346, R347, R374, R382, R452). -/

namespace Sys2Proof.Machine

/-! ### A slot's turn -/

/-- The latches of the slot before it runs a word. The address after it wraps modulo 2^56, as that of a branch or a jump does:
R92 gives no outcome past the top of the address space (log 81). -/
def Slot.latch (t : Slot) (w : BitVec 32) : Slot :=
  { t with ir := w, pfx := 0, npc := t.pc + 4, hold := false }

/-- The slot after an instruction that it ran from `before`: it stays where it is while it does not run on or must try the
instruction again; a body moves to its next position; else the slot goes to `npc`. -/
def Slot.commit (before t : Slot) : Slot :=
  if t.st ≠ .running || t.hold then t
  else
    let t :=
      { t with
        restart := if t.restart = before.restart then none else t.restart
        arrTok := if t.arrTok = before.arrTok then none else t.arrTok
        linked := false
        woken := false
        block := none
        captured := none }
    if t.loop then
      if before.loop then t.settle (before.bpos.toNat + (t.npc - before.pc).toNat / 4) else t
    else { t with pc := t.npc }

/-! ### Stores performed before the reply that reports POISON (R423) -/

/-- What an access of the slot names: its class, whether it is a plain store or STQ, the scalar and vector registers that form its
addresses and its data, those that take its result, and the bytes that it is for. -/
structure SlotAccess where
  cls : BitVec 4
  store : Bool := false
  /-- every later access comes after it -/
  acquire : Bool := false
  addr : List RegNo
  data : List RegNo := []
  vaddr : List RegNo := []
  vdata : List RegNo := []
  res : List RegNo := []
  vres : List RegNo := []
  bytes : List (Dword × Nat)

/-- The registers of a vector group, or of a pair of them. -/
def State.span (s : State) (v : RegNo) (n : Nat := 1) : List RegNo := groupRegs v (n * s.gN)

/-- The access that a scalar or vector load, store, STQ or atomic makes with the slot's registers as they stand; none for any other
instruction, for a lane slice, and for VTYPE.ILL. -/
def State.slotAccess (s : State) (i : Instr) : Option SlotAccess :=
  let at_ (a : RegNo) (o : Dword) (n : Nat) : List (Dword × Nat) := [(s.getX a + o, n)]
  let ld (d a : RegNo) (c : BitVec 4) (o : BitVec 12) (n : Nat) : Option SlotAccess :=
    some { cls := c, addr := [a], res := [d], bytes := at_ a (sext o) n }
  let st (d a : RegNo) (c : BitVec 4) (o : BitVec 12) (n : Nat) : Option SlotAccess :=
    some { cls := c, store := true, addr := [a], data := [d], bytes := at_ a (sext o) n }
  let amo (d a : RegNo) (q : BitVec 1) (c : BitVec 4) (w : BitVec 2) : Option SlotAccess :=
    some { cls := c, acquire := q = 1, addr := [a], data := (List.range 4).map fun k => d + BitVec.ofNat 5 k,
           res := [d, d + 1], bytes := at_ a 0 (4 * 2 ^ w.toNat) }
  let vec (mode : Nat) (a b m : RegNo) : List (Dword × Nat) :=
    (s.actives m).map fun i => (s.elemAddr mode a b i, max 1 (s.ew / 8))
  let mask (m : RegNo) : List RegNo := if m = 0 then [] else s.span m
  let index (mode : Nat) (b : RegNo) : List RegNo := if mode = 2 then groupRegs b s.indexG else []
  let vld (mode : Nat) (d a b m : RegNo) (c : BitVec 4) : Option SlotAccess :=
    if s.slot.vill then none
    else some { cls := c, addr := if mode = 1 then [a, b] else [a], vaddr := mask m ++ index mode b, vres := s.span d,
                bytes := vec mode a b m }
  let vst (mode : Nat) (d a b m : RegNo) (c : BitVec 4) : Option SlotAccess :=
    if s.slot.vill then none
    else some { cls := c, store := true, addr := if mode = 1 then [a, b] else [a], vaddr := mask m ++ index mode b,
                vdata := s.span d, bytes := vec mode a b m }
  let vamo (d a : RegNo) (q : BitVec 1) (c : BitVec 4) (w : BitVec 2) : Option SlotAccess :=
    if s.slot.vill then none
    else some { cls := c, acquire := q = 1, addr := [], vaddr := s.span a, vdata := s.span d 2, vres := s.span d,
                bytes := ((List.range s.vlN).map fun i => (BitVec.ofNat 64 (s.elem a 64 i), if w = 0 then 4 else 8)).filter
                  fun p => p.1 ≠ 0 }
  match i with
  | .ldB d a c o | .ldBu d a c o => ld d a c o 1
  | .ldH d a c o | .ldHu d a c o => ld d a c o 2
  | .ldW d a c o | .ldWu d a c o => ld d a c o 4
  | .ldD d a c o => ld d a c o 8
  | .stB d a c o => st d a c o 1
  | .stH d a c o => st d a c o 2
  | .stW d a c o => st d a c o 4
  | .stD d a c o => st d a c o 8
  | .stq n a c o =>
    some { cls := c, store := true, addr := [a], data := (List.range 4).map fun k => n + BitVec.ofNat 5 k,
           bytes := at_ a (stqOff o) 32 }
  | .stqV n a c o => some { cls := c, store := true, addr := [a], vdata := [n], bytes := at_ a (stqOff o) 32 }
  | .amoLd d a q _ _ c w | .amoSt d a q _ _ c w | .amoSwap d a q _ _ c w | .amoCas d a q _ _ c w
  | .amoAdd d a q _ _ c w | .amoAnd d a q _ _ c w | .amoOr d a q _ _ c w | .amoXor d a q _ _ c w
  | .amoMin d a q _ _ c w | .amoMax d a q _ _ c w | .amoMinu d a q _ _ c w | .amoMaxu d a q _ _ c w => amo d a q c w
  | .vld d a m c => vld 0 d a 0 m c
  | .vlds d a b m c => vld 1 d a b m c
  | .vldx d a b m c => vld 2 d a b m c
  | .vst d a m c => vst 0 d a 0 m c
  | .vsts d a b m c => vst 1 d a b m c
  | .vstx d a b m c => vst 2 d a b m c
  | .vamoLd d a q _ _ c w | .vamoSt d a q _ _ c w | .vamoSwap d a q _ _ c w | .vamoCas d a q _ _ c w
  | .vamoAdd d a q _ _ c w | .vamoAnd d a q _ _ c w | .vamoOr d a q _ _ c w | .vamoXor d a q _ _ c w
  | .vamoMin d a q _ _ c w | .vamoMax d a q _ _ c w | .vamoMinu d a q _ _ c w | .vamoMaxu d a q _ _ c w => vamo d a q c w
  | _ => none

/-- Where the bytes of an access lie: a range of keys of a local memory or of physical addresses; none where they cannot be
reached. -/
def State.placesOf (s : State) (k : AccessKind) (l : List (Dword × Nat)) : Option (List (Nat × Nat)) :=
  l.mapM fun p =>
    match s.locate s.ctx p.1 p.2 k with
    | .ok (.glob pa) _ | .ok (.peer _ pa _) _ => some (pa, p.2)
    | .ok t _ => some ((lockKey s.ctx t p.1 p.2).1, (lockKey s.ctx t p.1 p.2).2.1)
    | _ => none

/-- What is held until the reply arrives: the classes of the accesses that have not been performed and the bytes that they are for,
the registers whose values are not ready, and whether FLAGS, or VTYPE and VL, are among them. -/
structure HeldBack where
  cls : List (BitVec 4) := []
  bytes : List (Nat × Nat) := []
  regs : List RegNo := []
  vregs : List RegNo := []
  flags : Bool := false
  vtype : Bool := false

/-- Registers other than s0 that none of what is held back gives. -/
def HeldBack.clean (h : HeldBack) (rs vs : List RegNo) : Bool :=
  (rs.all fun r => !h.regs.contains r) && (vs.all fun v => !h.vregs.contains v)

/-- An access is held back too. -/
def HeldBack.hold (h : HeldBack) (a : SlotAccess) (places : List (Nat × Nat)) : HeldBack :=
  { h with
    cls := a.cls :: h.cls
    bytes := places ++ h.bytes
    regs := (a.res.filter fun r => r ≠ 0) ++ h.regs
    vregs := a.vres ++ h.vregs }

/-- The word that the slot in place issues next, without a trap that is due. -/
def State.nextWord (s : State) : Option (BitVec 32 × State) :=
  let t := s.slot
  if t.loop then (if t.issues t.bpos.toNat then t.body[t.bpos.toNat]? else none).map fun w => (w, s)
  else if fld t.pc 0 2 ≠ 0 then none
  else
    match s.fetchAt t.pc with
    | .ok w s => some (w, s)
    | _ => none

/-- The scalar and vector registers that an instruction without an access reads, by its family (R65): none where the model does not
go past it. Of a vector word every field stands for a register and for a group. -/
def earlyReads (i : Instr) (w : BitVec 32) : Option (List RegNo × List RegNo) :=
  let f (n : Nat) : RegNo := fld w n 5
  let major := (fld w 26 6).toNat
  match i with
  | .beq a b _ | .bne a b _ | .blt a b _ | .bge a b _ | .bltu a b _ | .bgeu a b _ => some ([a, b], [])
  | .bfs .. | .bfc .. | .j .. => some ([], [])
  | .jalr _ a _ => some ([a], [])
  | .ins16 d _ _ => some ([d], [])
  | .fcvtf _ a _ _ _ | .fcvtt _ a _ _ _ => some ([a], [])
  | .fmac d a b _ _ | .fnmac d a b _ _ => some ([d, a, b], [])
  | .lcount _ a => some ([a], [])
  | .lstride _ a r => some ([a, r], [])
  | _ =>
    if major = 1 then some ([f 16], [])
    else if major = 2 then some ([f 16, f 11], [])
    else if major = 3 then some ([], [])
    else if 0x18 ≤ major && major ≤ 0x1C then
      let fs := [f 21, f 16, f 11, f 6]
      some (fs, fs.flatMap fun v => groupRegs v 8)
    else none

/-- The scalar register that an instruction of majors 0x01 to 0x06 writes. -/
def earlyDest (w : BitVec 32) : List RegNo :=
  if [1, 2, 3, 6].contains (fld w 26 6).toNat && fld w 21 5 ≠ (0 : RegNo) then [fld w 21 5] else []

/-- An instruction that reads what is held back: its own result is held back with it, where it goes on at the next address. -/
def HeldBack.skip (h : HeldBack) (w : BitVec 32) : Option HeldBack :=
  let d : RegNo := fld w 21 5
  let major := (fld w 26 6).toNat
  if 1 ≤ major && major ≤ 3 then some { h with regs := earlyDest w ++ h.regs }
  else if major = 0x18 then some { h with regs := d :: h.regs, vregs := groupRegs d 8 ++ h.vregs, vtype := true }
  else if 0x19 ≤ major && major ≤ 0x1C then some { h with vregs := groupRegs d 8 ++ h.vregs, flags := true }
  else none

/-- An instruction performed before the reply: it takes no trap, does not wait, and makes no contribution. -/
def State.earlyRun (s q : State) (i : Instr) : Option State :=
  match exec i q with
  | .next u =>
    if u.slot.st = .running && !u.slot.hold && u.slot.busy = s.slot.busy && u.ranges = s.ranges then
      some (u.upd (Slot.commit s.slot))
    else none
  | _ => none

/-- The next instruction while the reply is awaited, with what is held back behind it (R423): a plain store or STQ is performed that
the ordering rules do not hold behind an access held back (R234), and every other access is held back itself. An access that all
later accesses follow ends what is done early, as does one whose addresses are not ready or that would trap. An instruction without
an access runs, or its result is held back; a branch on what is held back, and an instruction that would trap or wait, end it. -/
def State.earlyStep (h : HeldBack) (s : State) : Option (HeldBack × State) :=
  s.nextWord.bind fun p =>
    (decode p.1).bind fun i =>
      let q := p.2.upd fun t => t.latch p.1
      let past (h : HeldBack) : HeldBack × State := (h, q.upd (Slot.commit s.slot))
      match s.slotAccess i with
      | some a =>
        if a.cls = 0 || a.acquire || h.vtype || s.namesLink (a.addr ++ a.data ++ a.res) || !h.clean a.addr a.vaddr
            || !a.bytes.all fun p => fld p.1 56 8 = 0 && p.1.toNat % p.2 = 0 then none
        else
          (s.placesOf (if a.store then .write else .read) a.bytes).bind fun places =>
            let held := !a.store || h.cls.contains a.cls || !h.clean a.data a.vdata
              || places.any fun x => s.touchesRange x.1 x.2 || h.bytes.any fun y => x.1 < y.1 + y.2 && y.1 < x.1 + x.2
            if held then some (past (h.hold a places)) else (s.earlyRun q i).map fun u => (h, u)
      | none =>
        (earlyReads i p.1).bind fun rs => (s.earlyRun q i).bind fun u =>
          let vector := 0x18 ≤ (fld p.1 26 6).toNat
          let flags := match i with
            | .bfs .. | .bfc .. => h.flags
            | _ => false
          if s.namesLink (earlyDest p.1 ++ rs.1) then none
          else if h.clean rs.1 rs.2 && !flags && !(vector && h.vtype) then
            some ({ h with regs := h.regs.filter fun r => !(earlyDest p.1).contains r }, u)
          else (h.skip p.1).map past

def State.earlySteps : Nat → HeldBack → State → State
  | 0, _, s => s
  | n + 1, h, s =>
    match State.earlyStep h s with
    | some u => State.earlySteps n u.1 u.2
    | none => s

/-- An access of a nonzero class has trapped POISON: a free number of the instructions after it has been performed before the
reply, and what their stores did stays (R423, log 99). -/
def State.early (before : Slot) (s : State) : State :=
  if before.st = .running && s.slot.st = .faulted && s.slot.faultRec.any fun r => fld r.key 0 16 = causePoison then
    let s0 := { s with slot := before }
    match (decode s.slot.ir).bind s0.slotAccess with
    | some a =>
      if a.cls = 0 || a.acquire then s
      else
        let (n, s) := s.draw
        let u := State.earlySteps (Config.earlyStores n) (({} : HeldBack).hold a [])
          { s with slot := Slot.commit before (before.latch s.slot.ir) }
        { u with slot := { s.slot with unacked := u.slot.unacked, packets := u.slot.packets } }
    | none => s
  else s

/-- The state after an instruction: the slot in place has moved on. -/
def State.commit (before : Slot) (s : State) : State := (s.upd (Slot.commit before)).early before

/-- The slot in place runs a word: one that decodes to no instruction traps (R66). -/
def State.run (s : State) (w : BitVec 32) : Out :=
  let s' := s.upd fun t => t.latch w
  let o : Out := match decode w with
    | some i => exec i s'
    | none => s'.undecoded
  Outcome.map o (State.commit s.slot)

/-- The slot in place takes its next instruction: the one it holds, the next of its body that issues on this pass, or the
one that it fetches at its program counter. -/
def State.issueNext (s : State) : Out :=
  let t := s.slot
  if t.hold then s.run t.ir
  else if t.loop then
    match if t.issues t.bpos.toNat then t.body[t.bpos.toNat]? else none with
    | some w => s.run w
    | none => .next (s.upd fun t => t.settle t.bpos.toNat)
  else if fld t.pc 0 2 ≠ 0 then s.trap (misalignedTrap (t.pc.setWidth 64))
  else
    match s.fetchAt t.pc with
    | .ok w s => s.run w
    | .trap i s => s.trap i
    | .wait s | .miss s => .next s

/-- The trap that is due in the slot in place, else `k` (R172, R374). -/
def State.dueOr (s : State) (k : Out) : Out :=
  if s.slot.limitDue then execTaskLimit { s with arg := { n := s.slotNo } }
  else match s.slot.firstFault with
    | some f => .next (s.takeEngineFault f)
    | none => k

/-- A RUNNING slot's turn: a trap that is due comes first (R172, R374), but after the instruction whose parked condition has
been met (R191). -/
def State.turn (s : State) : Out := if s.slot.woken then s.issueNext else s.dueOr s.issueNext

/-- A trap that is due in a slot that does not run. -/
def State.dueTurn (s : State) : Out := s.dueOr (.next s)

/-! ### A memory core's turn (R345 to R347) -/

/-- The invocation after its instruction. -/
def State.mcCommit (r : McRun) (s : State) : State :=
  match s.mcs with
  | q :: rest =>
    if q.cmd.id = r.cmd.id && q.j = r.j then { s with mcs := { q with pc := q.npc } :: rest } else s
  | [] => s

/-- The instruction at an invocation's program counter, with the checks that R347 makes before it. -/
def State.mcTurn (s : State) : Out :=
  match s.mcs with
  | [] => .next s
  | r :: _ =>
    if r.pc < 0 || 1023 < r.pc then s.mcFault r 2
    else if 65536 ≤ r.count then s.mcFault r 6
    else
      let w := (aget [] s.mcprog (copyProg (r.cmd.reg 11))).getD r.pc.toNat 0
      let s' := s.setMc { r with npc := r.pc + 1, count := r.count + 1 }
      match decodeMc w with
      | some i => Outcome.map (exec i s') (State.mcCommit r)
      | none => s.mcFault r 1

/-! ### The agents that can act -/

inductive Agent where
  /-- an operation or event whose condition is met -/
  | event (i : Instr) (a : EvArgs)
  /-- a RUNNING slot -/
  | turn (n : SlotNo)
  /-- a PARKED slot in which a trap is due -/
  | due (n : SlotNo)
  /-- a memory-core invocation -/
  | mc (k : Nat)
  /-- entry `k` of what has been brought about -/
  | posted (k : Nat)
deriving DecidableEq, Repr

/-- An entry of the inbox that brings slot `n` the answer to its penq to the own module. -/
def answersPenq (n : SlotNo) (e : Instr × EvArgs) : Bool :=
  e.2.n = n && (match e.1 with
    | .windowEnqueue => e.2.wants
    | .penqReply => true
    | _ => false)

/-- The slot's wait, read now, compares true and completes (R191, R199, R200). -/
def State.waitMet (s : State) (n : SlotNo) : Bool :=
  let q := (s.focus n).upd Slot.rerun
  match q.run q.slot.ir with
  | .next u => u.slot.st = .running && !u.slot.hold && u.slot.busy = q.slot.busy
  | _ => false

/-- A trap that is due comes before the condition that the slot is parked for: the wait, read now, is not over; the answer to
a penq may come before it or after it (R191, R433). -/
def State.trapFirst (s : State) (n : SlotNo) : Park → Bool
  | .wait => !s.waitMet n
  | .penq _ _ => true
  | _ => false

/-- The event that ends a slot's parking, where its condition is met; a wait rereads to judge it. At a stage barrier that entered
OVERSHOOT a trap that is due is taken instead of STAGE_OVERRUN (R350, R374). -/
def State.unparks (s : State) (n : SlotNo) (t : Slot) : List Agent :=
  match t.park with
  | .none | .stage _ => []
  | .wait => [.event .waitWake { n }]
  | .barrier _ _ _ => if s.barrierMet n t then [.event .barWaitResume { n }] else []
  | .link a b => if s.linksMet n a b then [.event .linkParkedIssue { n }] else []
  | .stageGo done _ => if !done && t.trapDue then [] else [.event .sbWaitResume { n }]
  | .queue =>
    if (s.queue t.recQ.toNat).elim true fun k => k.canResume (.slot n) then [.event .queueRoomResume { n }] else []
  | .penq at_ own =>
    (if own then (s.inbox.zipIdx.filter fun e => t.trapDue && answersPenq n e.1).map fun e => .posted e.2
      else [0, 1, 2, 3, 4].map fun c => .event .penqReply { n, v := penqWord c })
      ++ if at_ + 2 ^ 24 ≤ (s.die (dieOf n)).cycle then [.event .penqTimeout { n }] else []

/-- What a slot can do next. A condition that is met comes before a trap that is due (R191). -/
def State.slotAgents (s : State) (n : SlotNo) (t : Slot) : List Agent :=
  match t.st with
  | .free | .held => []
  | .starting => [.event .pickUp { n }]
  | .running => [.turn n]
  | .parked =>
    let us := s.unparks n t
    us ++ if t.trapDue && (us.isEmpty || s.trapFirst n t.park) then [.due n] else []
  | .retiring => [.event .slotRetirement { n }]
  | .faulted => if s.faultRecReady n then [.event .faultRecordEnqueue { n }] else []

/-- The answers of peers to a slot's stores and packets. -/
def ackAgents (n : SlotNo) (t : Slot) : List Agent :=
  if t.unacked = 0 then []
  else [.event .acknowledgementReturn { n }, .event .acknowledgementReturn { n, ack := .refused }]

/-- What a graphics command can do: at the head of its binner's queue, unless it waits for a batch to leave; or a commit. -/
def State.gxReady (s : State) (m : Cmd) : Option Instr :=
  let d := dieOf m.slot
  if m.gxForm ≤ 3 then
    if (s.binnerQueue d).head?.map Cmd.id = some m.id && !s.binnerWaits d m then some .binnerRecord else none
  else
    match s.commitTask d m.a m.b with
    | some (t, k) =>
      if (if m.data.length < m.colours then m.data.length < s.coloursReady m else t.commitDue k) then some .commitPerform
      else none
    | none => none

/-- The next steps of a command that has its turn: of a copy, every piece that can be performed (R282). -/
def State.cmdSteps (s : State) (m : Cmd) : List (Instr × Nat) :=
  let one (b : Bool) (i : Instr) : List (Instr × Nat) := if b then [(i, 0)] else []
  match m.eng.toNat with
  | 0 =>
    if copyProg (m.reg 11) = 1 then
      let ps := (s.copyJob m).pieces
      if ps = [] then [(.mqCopyPiece, 0)]
      else (ps.zipIdx.filter fun p => s.pieceReady m p.1).map fun p => (.mqCopyPiece, p.2)
    else one (m.pos < partCount (shapeBounds (s.cmdShape m (fld (m.reg 8) 0 32)))) .mcInvocation
  | 2 => [(.slLoadRow, 0)]
  | 4 => one (s.streamReady m) .chainStep
  | 5 => ((s.gxReady m).map fun i => (i, 0)).toList
  | 6 => one ((s.bvHead (dieOf m.slot)).map Cmd.id = some m.id) .buildItem
  | _ => []

/-- On one stream commands complete in the order they issued; a completion word waits as an access does (R274). -/
def State.completes (s : State) (m : Cmd) : Bool :=
  (m.finished || s.gxDrained m)
    && !(m.onStream && s.cmds.any fun k =>
      !k.stopped && k.id < m.id && k.onStream && k.stream = m.stream && coreOf k.slot = coreOf m.slot)
    && !(m.reg 2 ≠ 0 && s.outOfTurn (s.ctxDone m))

/-- The steps of a plane-engine command: its accesses wait for `turn`, what it has read and its tile do not; with 1 the
operands, C or the tile alone are read (R275, R277). -/
def Cmd.planeSteps (m : Cmd) (turn : Bool) : List (Instr × Nat) :=
  let read := m.snap ≠ []
  let one (b : Bool) (i : Instr) (t : Nat) : List (Instr × Nat) := if b then [(i, t)] else []
  match m.peOp with
  | 0 => [(.peTileStep, 0)]
  | 1 => one (read || turn) .peTileStep 0 ++ one (turn && !read) .peTileStep 1
  | 2 => one (read || turn) .peMmaStep 0
      ++ one (turn && m.pos + m.ahead < m.ns && (m.pastEnd (m.pos + m.ahead)).isNone) .peMmaStep 1
  | _ => one turn .peTileStep 0 ++ one (!read) .peTileStep 1

/-- What a command can do: its accesses wait for those that come first in the slot's order (R234, R275). -/
def State.cmdAgents (s : State) (m : Cmd) : List Agent :=
  let turn := !(m.accesses && s.outOfTurn (s.ctxCmd m))
  let act (l : List (Instr × Nat)) : List Agent := l.map fun i => .event i.1 { c := m.id, t := i.2 }
  if m.stopped then []
  else if s.completes m then [.event .engineCommandComplete { c := m.id }]
  else if m.finished then []
  else if m.eng = 3 then (if s.streamReady m then act (m.planeSteps turn) else [])
  else if turn then act (s.cmdSteps m)
  else []

/-- A task of a tile that waits can go to its queue, or join its order. -/
def State.taskGoes (s : State) (d : DieNo) (k : ShadeTask) : Bool :=
  (s.queue k.queue.toNat).elim true fun q => !q.waiters.contains (k.waiter d) || q.canResume (k.waiter d)

/-- What the graphics engine of a die can do with a tile. -/
def State.tileAgents (s : State) (d : DieNo) (t : TileRun) : List Agent :=
  let g := (s.die d).gfx
  let a : EvArgs := { die := d, tx := t.tx, ty := t.ty, t := t.batch.toNat }
  let next (tr : Bool) : Option ShadeTask := t.tasks.find? fun k => k.trans = tr && !k.emitted
  (if g.canStart t then [.event .resolverTileStart a] else [])
    ++ (if t.slot.isSome && (!t.final || (next false).any fun k => s.taskGoes d k) then [.event .visibilityFinal a] else [])
    ++ (if t.toEmit.isEmpty then []
      else if t.transWaits then (if (next true).any fun k => s.taskGoes d k then [.event .translucentTaskEmit a] else [])
      else if g.entriesUsed (tileCluster (t.tx, t.ty)) < 256 then [.event .translucentTaskEmit a]
      else [])
    ++ (if t.drained then [.event .tileSlotRelease a] else [])

/-- The steps of a die's clock that the management core may take at a boundary: to any other level, a downward one for any
of the three causes (R450, R451). -/
def State.levelSteps (s : State) (d : DieNo) : List Agent :=
  let e := s.die d
  let old := (fld e.pwr 0 4).toNat
  if 0 < e.cycle && e.atBoundary then
    ((List.range 4).filter fun l => l ≠ old).flatMap fun l =>
      (if old < l then (List.range 8).drop 1 else [0]).map fun v =>
        .event .clockLevelStep { die := d, t := l, v := BitVec.ofNat 64 v }
  else []

/-- What a compute die can do. -/
def State.dieAgents (s : State) (d : DieNo) : List Agent :=
  let e := s.die d
  let a : EvArgs := { die := d }
  if e.lost || e.power = .off then []
  else if e.power = .idle then
    if !s.dieQuiet d || s.queues.any fun k => queueDie k.num = d && !k.entries.isEmpty then [.event .dieWake a] else []
  else
    (if s.hasDead d || (s.answerable d).isSome then [.event .dispatchGrant a] else [])
      ++ (if e.govAt + 1024 ≤ e.cycle && s.queues.any fun k => queueDie k.num = d && k.pipe ≠ 0
        then [.event .stageGovernorEvaluation a] else [])
      ++ (if e.gfx.canReplay then [.event .tileReplay a] else [])
      ++ (e.gfx.tiles.flatMap fun t => s.tileAgents d t)
      ++ (if e.pwrAt + 2 ^ 16 ≤ e.cycle then [.event .powerRefresh a] else [])
      ++ (if s.canIdle d then [.event .dieIdle a] else [])
      ++ s.levelSteps d

/-- What the memory levels can do: any line that is not pinned may leave a shared cache, a written one by way of its memory
core, and any decided cell its slice (R220, R281, R434). -/
def State.cacheAgents (s : State) : List Agent :=
  let drop (d : DieNo) (line : Nat) : Agent := .event .sliceEviction { die := d, line }
  ((s.homes.filter fun p => p.2.held && !s.pinnedLine (homeDie (p.1 * 64)) p.1).map fun p =>
      if p.2.written && deviceLine p.1 then .event .lineWriteback { line := p.1 } else drop (homeDie (p.1 * 64)) p.1)
    ++ ((s.slices.filter fun c => !s.pinnedLine c.die c.line).map fun c => drop c.die c.line)
    ++ ((s.cells.filter fun c => !s.pinnedLine c.die (c.pa / 64)).map fun c => drop c.die (c.pa / 64))

/-- What the hub, the balancer and the memory levels can do. -/
def State.hubAgents (s : State) : List Agent :=
  (if s.balAt + 4096 ≤ s.cycle && s.queues.any Queue.migr then [.event .balancerCycle {}] else [])
    ++ (if s.migrations.isEmpty then [] else [.event .migrationCommand {}])
    ++ ((s.recycles.filter fun p => s.recycleDone p && !s.bisnp.contains (p.pa / 64)).map fun p =>
      .event .cellRecycleReleaseDone { pa := p.pa })
    ++ ((allDies.filter fun d => !(s.die d).lost && s.seamGone d).map fun d => .event .seamLoss { die := d })
    ++ s.cacheAgents

/-- A held request of the host that is to be served: the first of its line, once no back-invalidation is outstanding (R411). -/
def State.freedAgents (s : State) : List Agent :=
  (s.inbox.zipIdx.filter fun p =>
    (hostRequestOf p.1).any fun l => p.1.2.t = 1 && !s.bisnp.contains l
      && !(s.inbox.take p.2).any fun e => hostRequestOf e = some l).map fun p => .posted p.2

/-- Every agent that can act. -/
def State.agents (s : State) : List Agent :=
  if s.nasum.phase.toNat ≤ 4 then [.event .moduleReset {}]
  else
    (s.allSlots.flatMap fun p => s.slotAgents p.1 p.2) ++ (s.allSlots.flatMap fun p => ackAgents p.1 p.2)
      ++ (s.cmds.flatMap fun m => s.cmdAgents m)
      ++ ((List.range s.mcs.length).map .mc)
      ++ (allDies.flatMap fun d => s.dieAgents d)
      ++ s.hubAgents ++ s.freedAgents

/-! ### What has been brought about (`State.inbox`) -/

/-- The entry can be performed: what waits for the host, for room, or for a boundary of a clock is passed over; the answer to a
penq in which a trap is due is left to the agents (R433). -/
def State.inboxReady (s : State) (e : Instr × EvArgs) : Bool :=
  match e.1 with
  | .memrd | .memwr | .meminv =>
    !s.bisnp.contains e.2.line && !s.inbox.any fun f => hostRequestOf f = some e.2.line && f.2.t = 1
  | .homeRead | .homeUpgrade => !s.bisnp.contains e.2.line && !s.fills.contains e.2.line
  | .peerAccessPacket => !s.bisnp.contains (e.2.peer.pa / 64)
  | .pageWalk => s.bisnp.isEmpty && s.fills.isEmpty
  | .faultRecordEnqueue => !e.2.wants || s.looseRecReady (BitVec.ofNat 32 e.2.t)
  | .remoteReducePacket =>
    (s.rangeAt e.2.red.pa).elim true fun r => !e.2.red.elems.any fun x => s.bisnp.contains (e.2.red.elemPa r x.1 / 64)
  | .tlbinvPage | .tlbinvAll => !s.inFlight
  | .vlmaxpWrite => !s.lanesHeld e.2.core e.2.t
  | .clockLevelStep => (s.die e.2.die).atBoundary
  | .windowEnqueue | .penqReply =>
    !(answersPenq e.2.n e && (s.getSlot e.2.n).inPenq && (s.getSlot e.2.n).trapDue)
  | _ => true

/-- The module, the slot and the class of a packet. -/
def packetFrom (e : Instr × EvArgs) : Option (BitVec 6 × SlotNo × BitVec 4) :=
  match e.1 with
  | .peerAccessPacket => some (e.2.peer.src, e.2.peer.slot, e.2.peer.cls)
  | .remoteReducePacket => some (e.2.red.src, e.2.red.slot, 0)
  | _ => none

/-- Two packets of one slot that are performed in issue order: of one class, or one of them of class 0 (R413). -/
def inIssueOrder (a b : Instr × EvArgs) : Bool :=
  match packetFrom a, packetFrom b with
  | some x, some y => x.1 = y.1 && x.2.1 = y.2.1 && classOrder x.2.2 y.2.2
  | _, _ => false

/-- The list without its first entry that satisfies a condition, given those before it. -/
def takeFirst {α : Type} (p : List α → α → Bool) (before : List α) : List α → Option (α × List α)
  | [] => none
  | a :: r => if p before a then some (a, r) else (takeFirst p (before ++ [a]) r).map fun q => (q.1, a :: q.2)

/-! ### The step -/

/-- What passes with a step: fences complete, and time, a free number of cycles of every clock. -/
def State.pass (s : State) : State :=
  let (n, s) := s.settleFences.draw
  s.elapse n

/-- The agent that acts, of those that can: a free choice where there are several. -/
def State.pick (s : State) : List Agent → Option Agent × State
  | [] => (none, s)
  | [a] => (some a, s)
  | l =>
    let (n, s) := s.draw
    (l[Config.schedule n % l.length]?, s)

/-- The agent acts. -/
def State.act (s : State) : Agent → Out
  | .event i a => exec i { s with arg := a }
  | .turn n => (s.focus n).turn
  | .due n => (s.focus n).dueTurn
  | .mc k => State.mcTurn { s with mcs := s.mcs.drop k ++ s.mcs.take k }
  | .posted k =>
    match s.inbox[k]? with
    | some e => exec e.1 { s with inbox := s.inbox.eraseIdx k, arg := e.2 }
    | none => .next s

/-- What the module does next: what has been brought about, then an agent, else nothing but time. -/
def State.move (s : State) : Out :=
  match takeFirst (fun before e => s.inboxReady e && !before.any fun b => inIssueOrder b e) [] s.inbox with
  | some ((i, a), rest) => exec i { s with inbox := rest, arg := a }
  | none =>
    match s.pick s.agents with
    | (some g, s) => s.act g
    | (none, s) => .next s

/-! ### Placing an instruction for the host -/

/-- Nothing else can act: the slot in place is alone. -/
def State.alone (s : State) : State :=
  { s with
    others := [], otherCores := [], cmds := [], mcs := [], queues := [], recycles := [], migrations := [], cells := [],
    slices := [], deferred := [], homes := [], inbox := [], cycle := 0, balAt := 0, teams := [], regions := [],
    dies := Vector.replicate 8 {}, nasum := { s.nasum with phase := phaseBooted } }

/-- A word for the slot in place, at its program counter where that is an address of device memory. -/
def State.placeCore (s : State) (w : BitVec 32) : State :=
  let s := s.alone
  let pc : BitVec 56 := if s.slot.pc.toNat < 2 ^ 40 && fld s.slot.pc 0 2 = 0 then s.slot.pc else 0
  { s with
    slot := { s.slot with
      st := .running, park := .none, hold := false, loop := false, mode := 2, pc, tasklim := 0, efaults := [], unacked := 0
      ahead := [], fences := [], linked := false, woken := false, block := none, captured := none }
    core := { s.core with icache := [] }
    poison := [], bisnp := [], fills := []
    mem := s.mem.write pc.toNat 4 w.toNat }

/-- A word for a memory core: the one invocation that runs, of program slot 3. -/
def State.placeMc (s : State) (w : BitVec 32) : State :=
  let s := s.alone
  let m : Cmd := { id := s.nextCmd, slot := s.slotNo, eng := 0, word := 0, er := (Vector.replicate 64 0).set 11 3, pos := 1,
                   stopped := true }
  { s with
    slot := { s.slot with st := .free, unacked := 0, fences := [] }
    mcprog := aset s.mcprog 3 [w]
    mcs := [{ cmd := m, j := 0, lo := 0, hi := 0 }] }

/-- The word placed where the next step fetches it: a core's, else a memory core's. -/
def State.placeWord (s : State) (w : BitVec 32) : State :=
  if (decode w).isNone && (decodeMc w).isSome then s.placeMc w else s.placeCore w

end Sys2Proof.Machine
end

