-- ==== Sys2Proof/Machine/Step.lean ====
section
/-! DEFINITION. The step of the machine, and the placing of an instruction for the host. -/

namespace Sys2Proof.Machine

/-- One step: one agent acts, and time passes. -/
def step (s : State) : Host.Outcome State Fault Refusal :=
  match s.move with
  | .next t => .next t.pass
  | .fault f => .fault f
  | .refused r => .refused r

/-- The instruction with the bits `w` placed where the next step fetches it. -/
def State.withFetchWord (s : State) (_nbits w : Nat) : State := s.placeWord (BitVec.ofNat 32 w)

end Sys2Proof.Machine
end

