-- ==== Sys2Proof/Safety.lean ====
section
/-! DEFINITION. What the claims speak of: when an instruction can complete, where a plain access lands, and the invariant
of the memory. A run is safe when no step of it faults or is refused. -/

namespace Sys2Proof.Machine

/-- A run of `n` steps that neither faults nor is refused. -/
def Safe (s : State) (n : Nat) : Prop := ∃ t, Sys2Proof.core.run n s = .next t

/-! ### The invariant -/

/-- Every byte store is in canonical form: the memory, and the checkpoints of the safe tier, which hold device memory alone
(R444). -/
def State.Canonical (s : State) : Prop := s.mem.wf ∧ ∀ p ∈ s.safe, p.2.wf ∧ ∀ c ∈ p.2, c.1 < 2 ^ 40

/-! ### Scalar operands -/

/-- The words that the fields name are at hand, and no fence of the slot holds them back (R185, R235): always, outside link
mode. -/
def State.LinksOk (s : State) (reads : List RegNo) (write : Option RegNo) : Prop :=
  s.linkEdge (reads ++ write.toList) = false ∧ s.linksFenced (reads ++ write.toList) = false
    ∧ s.linkReady reads write = true

/-- The scalar instruction `i` completes: it pops the words that `reads` names and writes `v` to field `d`. -/
def State.Gives (s : State) (i : Instr) (reads : List RegNo) (d : RegNo) (v : Dword) : Prop :=
  s.LinksOk reads (some d) → exec i s = .next (s.retire reads d v)

/-- The compare `i` completes: as `Gives` for the Boolean `t`, and FLAGS take `t` (R19). -/
def State.GivesFlag (s : State) (i : Instr) (reads : List RegNo) (d : RegNo) (t : Bool) : Prop :=
  s.LinksOk reads (some d) →
    exec i s = .next ((s.retire reads d (if t then 1 else 0)).setFlags (if t then 6 else 1))

/-- The rounding form `i` completes with the exact result `y` rounded once to tag `t` in mode `m` (R20, R48, R121): the
code extended by `ext` to field `d`, the sticky flags, SRSEED. -/
def State.GivesRounded (s : State) (i : Instr) (reads : List RegNo) (d : RegNo) (t : Nat) (m : RMode) (ext : Nat → Dword)
    (y : XRes) : Prop :=
  s.LinksOk reads (some d) →
    let q := roundTo t m (modSat s.slot.mods) (modPost s.slot.mods t y.val) (s.rword 0)
    exec i s = .next (((s.orFflags (y.flags ||| q.flags)).bumpSeed m).retire reads d (ext q.code))

/-! ### Plain accesses of `n` bytes by the slot held in place -/

/-- The access lands in a local memory that is not compressed, at `key`: through a row of R206, or through an alias window
of kind 0. -/
def State.LandsRaw (s : State) (va : Dword) (n key : Nat) : Prop :=
  locOf s.coreNo va n = .raw key ∨
    ∃ w off, locOf s.coreNo va n = .win w off ∧ wfmtKind (s.slot.wfmt.toList.getD w 0) = 0
      ∧ wfmtOrigin (s.slot.wfmt.toList.getD w 0) + off + n ≤ spadSize
      ∧ key = keySpad s.coreNo (wfmtOrigin (s.slot.wfmt.toList.getD w 0) + off)

/-- A local access of class `c` that can be made now: the address is well formed, and no command or fence of the slot holds it
back (R234, R235, R276). -/
def State.RawAt (s : State) (va : Dword) (n key : Nat) (wr : Bool) (c : BitVec 4 := 0) : Prop :=
  fld va 56 8 = 0 ∧ va.toNat % n = 0 ∧ s.LandsRaw va n key ∧ s.interlocked (s.ctxC c) key n wr true = false

/-- An access of class `c` to device memory in firmware mode that can be made now: it is aligned, its line is neither POISON
nor held by the host, no range holds a byte of it, and no command or fence of the slot holds it back. -/
def State.DeviceAt (s : State) (va : Dword) (n : Nat) (wr : Bool) (c : BitVec 4 := 0) : Prop :=
  s.slot.mode = 2 ∧ va.toNat < 2 ^ 40 ∧ va.toNat % n = 0 ∧ s.poisoned (va.toNat / 64) = false
    ∧ s.hostHolds (va.toNat / 64) wr = false ∧ s.touchesRange va.toNat n = false
    ∧ s.interlocked (s.ctxC c) va.toNat n wr false = false

/-- An atomic of class `c` on the `n` bytes at `key` can be made now: `look` is the state after a read half alone, `write v` the
one after `v` is written. It acts on an uncompressed local memory, or on device memory at the line's owner (R222, R249). -/
def State.AtomicAt (s : State) (va : Dword) (n key : Nat) (c : BitVec 4) (look : State) (write : Nat → State) : Prop :=
  (s.RawAt va n key false c ∧ s.RawAt va n key true c ∧ look = s.touchKey s.coreNo key false
      ∧ write = fun v => { s.touchKey s.coreNo key true with mem := s.mem.write key n v })
    ∨ (s.DeviceAt va n false c ∧ s.DeviceAt va n true c ∧ key = va.toNat ∧ look = (s.readAtomic (s.ctxC c) key n).2
      ∧ write = fun v => s.writeLine s.coreNo key n v)

/-! ### Vector instructions that can complete -/

/-- VTYPE is legal, the registers name groups of the current grouping, and the mask field does (R10, R14, R23). -/
def State.Groups (s : State) (rs : List RegNo) (m : RegNo) : Prop :=
  s.slot.vill = false ∧ (∀ r ∈ rs, groupOk r s.gN = true) ∧ s.maskOk m = true

/-- A form of two sources of one tag at the width of VTYPE, its sources there and its destination free (R26, R27, R129). -/
def State.VBinOk (s : State) (d a b m : RegNo) (r : BitVec 3) : Prop :=
  s.Groups [d, a, b] m ∧ s.repOk r = true ∧ s.vtag a = s.vtag b ∧ tagReg (s.vtag a) = s.ew
    ∧ s.vready [a] d m = true ∧ s.readable2 b r = true

/-- A form of one source. -/
def State.VUnOk (s : State) (d a m : RegNo) : Prop :=
  s.Groups [d, a] m ∧ tagReg (s.vtag a) = s.ew ∧ s.vready [a] d m = true

/-- A form that reads its source as a whole. -/
def State.VMoveOk (s : State) (d a m : RegNo) : Prop :=
  s.Groups [d, a] m ∧ tagReg (s.vtag a) = s.ew ∧ s.complete a = true ∧ s.vready [] d m = true

/-- A vector access of mode 0 to 3 whose operands pass the checks of R66 and R151 (R26, R27). -/
def State.VMemOk (s : State) (mode : Nat) (ld : Bool) (d a b m : RegNo) : Prop :=
  s.namesLink (if mode = 1 then [a, b] else [a]) = false ∧ s.Groups [d] m ∧ (mode = 0 ∨ 8 ≤ s.ew)
    ∧ (2 ≤ mode → groupOk b s.indexG = true ∧ s.readableAs b s.indexG s.indexW s.vlN = true ∧ (ld = true → overlaps d s.gN b s.indexG = false))
    ∧ (m = 0 ∨ s.readable m s.vlN = true) ∧ (if ld then s.writable d s.vlN else s.readable d s.vlN) = true

/-- No command of the slot holds the footprint of a vector access of mode 0 or 1 back (R276), and no earlier access the
lane-slice elements of one of mode 3 (R232, R234); each element of mode 2 is judged for itself. -/
def State.VTurnOk (s : State) (mode : Nat) (a b : RegNo) (wr : Bool) (c : BitVec 4) : Prop :=
  (mode ≤ 1 → s.meetsEntry s.ctx (s.vecEntry mode a b wr) = false) ∧ (mode = 3 → s.outOfTurn (s.ctxC c) = false)

/-- The active elements that a vector access still has to perform: from its restart element on (R153). -/
def State.pending (s : State) (m : RegNo) : List Nat := (s.actives m).filter fun i => s.slot.restart.elim 0 BitVec.toNat ≤ i

/-! ### Engine commands -/

/-- The instruction is new, no command of its waits, and the completion-word register of engine `e` passes checks 3 and 4 of
R273. -/
def State.CwaOk (s : State) (e : Nat) : Prop :=
  s.slot.captured = none
    ∧ (s.slot.ereg e 2 = 0 ∨ (cwaOk (s.slot.ereg e 2) = true ∧ fld (s.slot.ereg e 2) 0 3 = (0 : BitVec 3)))

/-- The handles name records in the shape table of the core's cluster (check 5 of R273). -/
def State.HandlesOk (s : State) (hs : List Dword) : Prop := ∀ h ∈ hs, (s.shapeOf (clusOfCore s.coreNo) h).isSome = true

/-- The instruction `i` issues the command `m` (R273, R276, R382): with room in the queue and the interlock table, and no
conflict, and with `ready` for the registers that it names, the slot's stopped command of that engine is dropped, the new one
stands last, ISSUED counts it and `f` applies; otherwise the instruction waits with what it has captured. -/
def State.Issues (s : State) (i : Instr) (m : Cmd) (f : State → State) (ready : Bool := true) : Prop :=
  let e := m.eng.toNat
  exec i s = .next (if ready && s.canIssue m.slot e m.locks then
      f { s with cmds := (s.cmds.filter fun k => !(k.slot = m.slot && k.eng.toNat = e && k.stopped)) ++ [m],
                 nextCmd := s.nextCmd + 1, slot := s.slot.countCmd e 1 0 }
    else { s with slot := { s.slot with hold := true, captured := some m } })

end Sys2Proof.Machine
end

