-- ==== Sys2Proof/Certificates/Slice0/Obligations.lean ====
section
/-! DEFINITION. The statements for the provers. -/

open Sys2Proof Sys2Proof.Machine

/-- With LM = 0 no scalar instruction waits for a link; a field reads s(r); completion writes s(d) and nothing else;
s0 reads 0, a write of s0 leaves the state as it is, and a write of another register changes that register alone.
Outside a prefix pair, each of add, sub, and, or, xor, andn, the shifts and rotates, min, minu, max, maxu and the
bit-interleave forms whose links are ready completes: its words are popped and its result is written to rd. The shift
amounts are the low six bits of the second operand. Rests on R8, R95, R96, R101, R185, R203. -/
def Obligations.IntegerRegisterResults : Prop :=
  (∀ (s : State) (reads : List RegNo) (d r : RegNo) (v : Dword),
    (s.slot.lm = false →
      s.LinksOk reads (some d) ∧ s.LinksOk reads none ∧ s.src reads r = s.getX r ∧ s.popLinks reads = s
        ∧ s.retire reads d v = s.setX d v)
      ∧ s.getX 0 = 0 ∧ s.setX 0 v = s ∧ (d ≠ 0 → (s.setX d v).getX d = v)
      ∧ (r ≠ d → (s.setX d v).getX r = s.getX r)
      ∧ s.setX d v = { s with slot := { s.slot with x := (s.setX d v).slot.x } })
  ∧ (∀ (s : State) (d a b : RegNo), s.slot.mods = none →
    let x := s.src [] a
    let y := s.src [a] b
    let n := y.toNat % 64
    s.Gives (.add d a b) [a, b] d (x + y) ∧ s.Gives (.sub d a b) [a, b] d (x - y)
      ∧ s.Gives (.and d a b) [a, b] d (x &&& y) ∧ s.Gives (.or d a b) [a, b] d (x ||| y)
      ∧ s.Gives (.xor d a b) [a, b] d (x ^^^ y) ∧ s.Gives (.andn d a b) [a, b] d (x &&& ~~~y)
      ∧ s.Gives (.sll d a b) [a, b] d (x <<< n) ∧ s.Gives (.srl d a b) [a, b] d (x >>> n)
      ∧ s.Gives (.sra d a b) [a, b] d (x.sshiftRight n) ∧ s.Gives (.ror d a b) [a, b] d (x.rotateRight n)
      ∧ s.Gives (.min d a b) [a, b] d (if x.toInt < y.toInt then x else y)
      ∧ s.Gives (.minu d a b) [a, b] d (if x.toNat < y.toNat then x else y)
      ∧ s.Gives (.max d a b) [a, b] d (if x.toInt < y.toInt then y else x)
      ∧ s.Gives (.maxu d a b) [a, b] d (if x.toNat < y.toNat then y else x)
      ∧ s.Gives (.bilv2 d a b) [a, b] d (bilv2D x y)
      ∧ s.Gives (.bilv3 d a b) [a, b, d] d (bilv3D x y (s.src [a, b] d))
      ∧ s.Gives (.bext2 d a b) [a, b] d (bext2D x y) ∧ s.Gives (.bext3 d a b) [a, b] d (bext3D x y))

/-- P is the exact product. mul writes P[63:0], mulh P[127:64] with both operands signed, mulhu with both unsigned,
mulhsu with the first signed and the second unsigned; outside a prefix pair for mul. Rests on R97. -/
def Obligations.MultiplicationHalves : Prop :=
  ∀ (s : State) (d a b : RegNo),
    let x := s.src [] a
    let y := s.src [a] b
    (s.slot.mods = none → s.Gives (.mul d a b) [a, b] d (BitVec.ofInt 64 (x.toInt * y.toInt))
        ∧ s.Gives (.mul d a b) [a, b] d (BitVec.ofNat 64 (x.toNat * y.toNat)))
      ∧ s.Gives (.mulh d a b) [a, b] d (BitVec.ofInt 64 (x.toInt * y.toInt / 2 ^ 64))
      ∧ s.Gives (.mulhu d a b) [a, b] d (BitVec.ofNat 64 (x.toNat * y.toNat / 2 ^ 64))
      ∧ s.Gives (.mulhsu d a b) [a, b] d (BitVec.ofInt 64 (x.toInt * y.toNat / 2 ^ 64))

/-- div and divu write the truncated quotient, or the end of the range where it lies outside (every quotient by zero,
and the most negative number by -1); rem and remu write the remainder with the dividend's sign, and the dividend where
the divisor is zero. None traps and none sets a flag. Rests on R98. -/
def Obligations.DivisionSaturatesAndKeepsTheDividend : Prop :=
  ∀ (s : State) (d a b : RegNo),
    let x := s.src [] a
    let y := s.src [a] b
    s.Gives (.div d a b) [a, b] d
        (if y = 0 then (if x.toInt < 0 then 0x8000000000000000 else 0x7FFFFFFFFFFFFFFF)
         else if x.toInt = -2 ^ 63 ∧ y.toInt = -1 then 0x7FFFFFFFFFFFFFFF
         else BitVec.ofInt 64 (x.toInt.tdiv y.toInt))
      ∧ s.Gives (.divu d a b) [a, b] d
        (if y = 0 then 0xFFFFFFFFFFFFFFFF else BitVec.ofNat 64 (x.toNat / y.toNat))
      ∧ s.Gives (.rem d a b) [a, b] d (if y = 0 then x else BitVec.ofInt 64 (x.toInt.tmod y.toInt))
      ∧ s.Gives (.remu d a b) [a, b] d (if y = 0 then x else BitVec.ofNat 64 (x.toNat % y.toNat))

/-- In a prefix pair, add, sub, mul, min, max, minu and maxu take the operands with ABSA, NEGA, ABSB and NEGB applied,
and write the exact result after SCALE, CLAMP and SAT. That minu and maxu read their operands as unsigned numbers and
the other five as signed ones is the model's choice (log 8). The immediate forms combine s(rs1) with the sign-extended
immediate or shift by the low six bits; clz, ctz, popc and bswap act on s(rs1); li, lis and pcseg write their
constant, and ins16 replaces one halfword of the old rd. Rests on R70, R85, R86, R87, R95, R96, R100, R102. -/
def Obligations.ImmediateUnaryAndPrefixedResults : Prop :=
  (∀ (s : State) (d a b : RegNo) (m : Mods), s.slot.mods = some m →
    let sx := modInt m.absa m.nega (s.src [] a).toInt
    let sy := modInt m.absb m.negb (s.src [a] b).toInt
    let ux := modInt m.absa m.nega (s.src [] a).toNat
    let uy := modInt m.absb m.negb (s.src [a] b).toNat
    s.Gives (.add d a b) [a, b] d (BitVec.ofNat 64 (m.intResult true 64 (sx + sy)))
      ∧ s.Gives (.sub d a b) [a, b] d (BitVec.ofNat 64 (m.intResult true 64 (sx - sy)))
      ∧ s.Gives (.mul d a b) [a, b] d (BitVec.ofNat 64 (m.intResult true 64 (sx * sy)))
      ∧ s.Gives (.min d a b) [a, b] d (BitVec.ofNat 64 (m.intResult true 64 (min sx sy)))
      ∧ s.Gives (.max d a b) [a, b] d (BitVec.ofNat 64 (m.intResult true 64 (max sx sy)))
      ∧ s.Gives (.minu d a b) [a, b] d (BitVec.ofNat 64 (m.intResult false 64 (min ux uy)))
      ∧ s.Gives (.maxu d a b) [a, b] d (BitVec.ofNat 64 (m.intResult false 64 (max ux uy))))
  ∧ (∀ (s : State) (d a : RegNo) (i : BitVec 12) (n : BitVec 6) (k : BitVec 16) (h : BitVec 2),
    let x := s.src [] a
    s.Gives (.addi d a i) [a] d (x + i.signExtend 64) ∧ s.Gives (.andi d a i) [a] d (x &&& i.signExtend 64)
      ∧ s.Gives (.ori d a i) [a] d (x ||| i.signExtend 64) ∧ s.Gives (.xori d a i) [a] d (x ^^^ i.signExtend 64)
      ∧ s.Gives (.slli d a n) [a] d (x <<< n.toNat) ∧ s.Gives (.srli d a n) [a] d (x >>> n.toNat)
      ∧ s.Gives (.srai d a n) [a] d (x.sshiftRight n.toNat) ∧ s.Gives (.rori d a n) [a] d (x.rotateRight n.toNat)
      ∧ s.Gives (.clz d a) [a] d (BitVec.ofNat 64 (leadZeros x)) ∧ s.Gives (.ctz d a) [a] d (BitVec.ofNat 64 (trailZeros x))
      ∧ s.Gives (.popc d a) [a] d (BitVec.ofNat 64 (popCount x)) ∧ s.Gives (.bswap d a) [a] d (bswapD x)
      ∧ s.Gives (.li d k) [] d (k.signExtend 64) ∧ s.Gives (.lis d k) [] d (k.signExtend 64 <<< 16)
      ∧ s.Gives (.pcseg d k) [] d (BitVec.ofNat 64 (s.slot.pc.toNat / 65536 * 65536) + (k.signExtend 64 <<< 16))
      ∧ s.Gives (.ins16 d h k) [d] d (setFld (s.src [] d) (16 * h.toNat) k))

/-- Each compare writes t, 0 or 1, to rd and sets FLAGS from t. fceq, fclt and fcle also raise NV: fceq for a
signalling NaN, the others for any NaN. Rests on R19, R95, R99, R125. -/
def Obligations.CompareResultsAndFlags : Prop :=
  ∀ (s : State) (d a b : RegNo) (i : BitVec 12) (f : BitVec 2),
    let x := s.src [] a
    let y := s.src [a] b
    let u := fpArg f x
    let v := fpArg f y
    let quiet := s.orFflags (if u.isSig || v.isSig then 0x10 else 0)
    let loud := s.orFflags (if u.isNan || v.isNan then 0x10 else 0)
    s.GivesFlag (.ceq d a b) [a, b] d (x = y) ∧ s.GivesFlag (.cne d a b) [a, b] d (x ≠ y)
      ∧ s.GivesFlag (.clt d a b) [a, b] d (x.toInt < y.toInt) ∧ s.GivesFlag (.cge d a b) [a, b] d (y.toInt ≤ x.toInt)
      ∧ s.GivesFlag (.cltu d a b) [a, b] d (x.toNat < y.toNat) ∧ s.GivesFlag (.cgeu d a b) [a, b] d (y.toNat ≤ x.toNat)
      ∧ s.GivesFlag (.clti d a i) [a] d (x.toInt < i.toInt)
      ∧ s.GivesFlag (.cltiu d a i) [a] d (x.toNat < (i.signExtend 64).toNat)
      ∧ (s.LinksOk [a, b] (some d) →
          exec (.fceq d a b f) s
              = .next ((quiet.retire [a, b] d (if u.eq v then 1 else 0)).setFlags (if u.eq v then 6 else 1))
            ∧ exec (.fclt d a b f) s
              = .next ((loud.retire [a, b] d (if u.lt v then 1 else 0)).setFlags (if u.lt v then 6 else 1))
            ∧ exec (.fcle d a b f) s
              = .next ((loud.retire [a, b] d (if u.le v then 1 else 0)).setFlags (if u.le v then 6 else 1)))

/-- With rounding mode m named by rm (FRM for rm 7), fadd, fsub, fmul, fdiv, fsqrt, fmac, fnmac, fcvtf and fcvtt write
the exact result of their modified operands rounded once to the format, and raise its flags. fmin and fmax pick an
operand; in a prefix pair they round with the mode in FRM, which is the model's choice (log 20). That fcvtf and fcvtt
of a pair round to an integer tag by round_to with the pair's SAT is the model's choice too (log 9), and that fcvtf
advances SRSEED under RSR whatever its target is (log 79). fclass writes the class word and raises nothing. Where rm
is 7 and FRM holds 6 or 7, each rounding form takes the ILLEGAL trap with TVAL the word, and writes no register. Rests
on R20, R48, R69, R87, R120, R121, R122, R123, R124, R126, R127. -/
def Obligations.FloatingPointResults : Prop :=
  (∀ (s : State) (d a b t : RegNo) (f : BitVec 2) (r : BitVec 3) (m : RMode), s.rmode r.toNat = some m →
    let p := s.slot.mods
    let x := modA p (fpArg f (s.src [] a))
    let y := modB p (fpArg f (s.src [a] b))
    let z := fpArg f (s.src [a, b] d)
    let dn := decide (m = .rdn)
    s.GivesRounded (.fadd d a b f r) [a, b] d f.toNat m (BitVec.ofNat 64) (XV.add dn x y)
      ∧ s.GivesRounded (.fsub d a b f r) [a, b] d f.toNat m (BitVec.ofNat 64) (XV.sub dn x y)
      ∧ s.GivesRounded (.fmul d a b f r) [a, b] d f.toNat m (BitVec.ofNat 64) (XV.mul x y)
      ∧ s.GivesRounded (.fdiv d a b f r) [a, b] d f.toNat m (BitVec.ofNat 64) (XV.div x y)
      ∧ s.GivesRounded (.fsqrt d a f r) [a] d f.toNat m (BitVec.ofNat 64) (XV.sqrt (fpArg f (s.src [] a)))
      ∧ s.GivesRounded (.fmac d a b f r) [a, b, d] d f.toNat m (BitVec.ofNat 64) (XV.fma dn x y z)
      ∧ s.GivesRounded (.fnmac d a b f r) [a, b, d] d f.toNat m (BitVec.ofNat 64) (XV.fma dn x.negate y z)
      ∧ s.GivesRounded (.fcvtf d a t f r) [a] d t.toNat m (extendTag t.toNat) ⟨x, 0⟩
      ∧ s.GivesRounded (.fcvtt d a t f r) [a] d f.toNat m (BitVec.ofNat 64)
        ⟨modA p (decodeTag t.toNat (s.src [] a).toNat), 0⟩
      ∧ ((p = none ∧ m = .rne) ∨ (p ≠ none ∧ s.rmode 7 = some m) →
          s.GivesRounded (.fmin d a b f) [a, b] d f.toNat m (BitVec.ofNat 64) (XV.minNum x y)
            ∧ s.GivesRounded (.fmax d a b f) [a, b] d f.toNat m (BitVec.ofNat 64) (XV.maxNum x y))
      ∧ s.Gives (.fclass d a f) [a] d (classWord f (s.src [] a)))
  ∧ (∀ (s : State) (d a b t : RegNo) (f : BitVec 2), 6 ≤ s.slot.frm.toNat → s.LinksOk [a, b, d] (some d) →
    ∀ i ∈ [Instr.fadd d a b f 7, .fsub d a b f 7, .fmul d a b f 7, .fdiv d a b f 7, .fsqrt d a f 7, .fmac d a b f 7,
        .fnmac d a b f 7, .fcvtf d a t f 7, .fcvtt d a t f 7],
      exec i s = .next (s.takeTrap { cause := 1, tval := s.slot.ir.setWidth 64 }))

/-- When a scalar integer, compare or floating-point form whose links are ready gives a next state that is no trap,
only the scalar registers other than s0, the link queues, and, for compares, FLAGS and, for floating point, FFLAGS and
SRSEED may have changed. Outside link mode every scalar register but rd keeps its value and every core is as before.
Memory is as before. Rests on R8, R19, R20, R48, R95, R99, R121, R185. -/
def Obligations.ScalarRegisterFormFrame : Prop :=
  ∀ (s t : State) (d a b k : RegNo) (i : BitVec 12) (n : BitVec 6) (f : BitVec 2) (r : BitVec 3) (h : BitVec 2)
    (u : BitVec 16),
    let ints : List (Instr × List RegNo) :=
      [(.add d a b, [a, b]), (.sub d a b, [a, b]), (.and d a b, [a, b]), (.or d a b, [a, b]), (.xor d a b, [a, b]),
       (.andn d a b, [a, b]), (.sll d a b, [a, b]), (.srl d a b, [a, b]), (.sra d a b, [a, b]), (.ror d a b, [a, b]),
       (.min d a b, [a, b]), (.minu d a b, [a, b]), (.max d a b, [a, b]), (.maxu d a b, [a, b]), (.mul d a b, [a, b]),
       (.mulh d a b, [a, b]), (.mulhu d a b, [a, b]), (.mulhsu d a b, [a, b]), (.div d a b, [a, b]),
       (.divu d a b, [a, b]), (.rem d a b, [a, b]), (.remu d a b, [a, b]), (.bilv2 d a b, [a, b]),
       (.bilv3 d a b, [a, b, d]), (.bext2 d a b, [a, b]), (.bext3 d a b, [a, b]), (.addi d a i, [a]), (.andi d a i, [a]),
       (.ori d a i, [a]), (.xori d a i, [a]), (.slli d a n, [a]), (.srli d a n, [a]), (.srai d a n, [a]),
       (.rori d a n, [a]), (.clz d a, [a]), (.ctz d a, [a]), (.popc d a, [a]), (.bswap d a, [a]), (.li d u, []),
       (.lis d u, []), (.pcseg d u, []), (.ins16 d h u, [d]), (.fclass d a f, [a])]
    let cmps : List (Instr × List RegNo) :=
      [(.ceq d a b, [a, b]), (.cne d a b, [a, b]), (.clt d a b, [a, b]), (.cge d a b, [a, b]), (.cltu d a b, [a, b]),
       (.cgeu d a b, [a, b]), (.clti d a i, [a]), (.cltiu d a i, [a])]
    let fcmps : List (Instr × List RegNo) := [(.fceq d a b f, [a, b]), (.fclt d a b f, [a, b]), (.fcle d a b f, [a, b])]
    let fps : List (Instr × List RegNo) :=
      [(.fadd d a b f r, [a, b]), (.fsub d a b f r, [a, b]), (.fmul d a b f r, [a, b]), (.fdiv d a b f r, [a, b]),
       (.fsqrt d a f r, [a]), (.fmin d a b f, [a, b]), (.fmax d a b f, [a, b]), (.fmac d a b f r, [a, b, d]),
       (.fnmac d a b f r, [a, b, d]), (.fcvtf d a k f r, [a]), (.fcvtt d a k f r, [a])]
    ∀ p ∈ ints ++ cmps ++ fcmps ++ fps, s.LinksOk p.2 (some d) → exec p.1 s = .next t →
      (p ∈ fps → s.slot.frm.toNat < 6 ∧ r ≠ 6) →
      t = { s with
            slot := { s.slot with x := t.slot.x, flags := t.slot.flags, fflags := t.slot.fflags, srseed := t.slot.srseed }
            core := { s.core with links := t.core.links }
            otherCores := t.otherCores }
        ∧ (∀ c, t.getCore c = { s.getCore c with links := (t.getCore c).links })
        ∧ (p ∈ ints → t.slot.flags = s.slot.flags ∧ t.slot.fflags = s.slot.fflags ∧ t.slot.srseed = s.slot.srseed)
        ∧ (p ∈ cmps → t.slot.fflags = s.slot.fflags ∧ t.slot.srseed = s.slot.srseed)
        ∧ (p ∈ fcmps → t.slot.srseed = s.slot.srseed) ∧ (p ∈ fps → t.slot.flags = s.slot.flags)
        ∧ t.slot.x[0] = s.slot.x[0]
        ∧ (s.slot.lm = false → (∀ q, q ≠ d → t.getX q = s.getX q) ∧ t.core = s.core ∧ t.otherCores = s.otherCores)
        ∧ (∀ q, linkOf q = none → q ≠ d → t.getX q = s.getX q)
        ∧ (∀ key, t.mem.get key = s.mem.get key)

/-- Outside a loop body, beq, bne, blt, bge, bltu and bgeu whose links are ready go to their address plus four times
the displacement when the comparison holds and otherwise fall through; bfs and bfc do so on a bit of FLAGS; j always
jumps; jalr jumps to s(rs1) plus its immediate and writes the address after it to rd, for a target that is aligned and
below 2^56. The fall-through is the address after the instruction, which the step sets beforehand. That these
addresses wrap modulo 2^56 and that the value written is the PC + 4 in 64 bits, not wrapped, is the model's choice
(log 81). Rests on R19, R103, R104, R105, R106. -/
def Obligations.JumpsAndBranchesGoWhereTheySay : Prop :=
  ∀ (s : State) (a b d : RegNo) (k : RegNo) (o : BitVec 13) (w : BitVec 26) (i : BitVec 16), s.slot.loop = false →
    let x := s.src [] a
    let y := s.src [a] b
    let go (c : Prop) [Decidable c] : Host.Outcome State Fault Refusal :=
      .next (if c then (s.popLinks [a, b]).upd fun t => { t with npc := s.slot.pc + o.signExtend 56 * 4 }
        else s.popLinks [a, b])
    let flag (c : Prop) [Decidable c] : Host.Outcome State Fault Refusal :=
      .next (if c then s.upd fun t => { t with npc := s.slot.pc + o.signExtend 56 * 4 } else s)
    (s.LinksOk [a, b] none →
        exec (.beq a b o) s = go (x = y) ∧ exec (.bne a b o) s = go (x ≠ y)
          ∧ exec (.blt a b o) s = go (x.toInt < y.toInt) ∧ exec (.bge a b o) s = go (y.toInt ≤ x.toInt)
          ∧ exec (.bltu a b o) s = go (x.toNat < y.toNat) ∧ exec (.bgeu a b o) s = go (y.toNat ≤ x.toNat))
      ∧ exec (.bfs k o) s = flag (s.slot.flags.getLsbD k.toNat = true)
      ∧ exec (.bfc k o) s = flag (s.slot.flags.getLsbD k.toNat = false)
      ∧ exec (.j w) s = .next (s.upd fun t => { t with npc := s.slot.pc + w.signExtend 56 * 4 })
      ∧ (s.LinksOk [a] (some d) → (x + i.signExtend 64).toNat < 2 ^ 56 → (x + i.signExtend 64).toNat % 4 = 0 →
          exec (.jalr d a i) s
            = .next ((s.retire [a] d (s.slot.pc.setWidth 64 + 4)).upd fun t =>
                { t with npc := BitVec.ofNat 56 (x + i.signExtend 64).toNat }))

/-- jalr to a target with a bit set in 63:56 traps ADDRESS with TVAL the target; to a target that is not a multiple of
4 it traps MISALIGNED. No register is written. While LOOP is 1, every branch, jump and loop-sequencer instruction
takes the ILLEGAL trap with TVAL the word. tret does so too. Rests on R32, R106, R378. -/
def Obligations.ControlFlowTraps : Prop :=
  (∀ (s : State) (a d : RegNo) (i : BitVec 16), s.slot.loop = false → s.LinksOk [a] (some d) →
    let t := s.src [] a + i.signExtend 64
    (2 ^ 56 ≤ t.toNat → exec (.jalr d a i) s = .next (s.takeTrap { cause := 5, tval := t }))
      ∧ (t.toNat < 2 ^ 56 → t.toNat % 4 ≠ 0 → exec (.jalr d a i) s = .next (s.takeTrap { cause := 4, tval := t })))
  ∧ (∀ (s : State) (a b d k : RegNo) (o : BitVec 13) (w : BitVec 26) (i : BitVec 16), s.slot.loop = true →
    ∀ c ∈ [Instr.beq a b o, .bne a b o, .blt a b o, .bge a b o, .bltu a b o, .bgeu a b o, .bfs k o, .bfc k o, .j w,
        .jalr d a i, .lcount k a, .lstride k a b, .loop, .tret],
      exec c s = .next (s.takeTrap { cause := 1, tval := s.slot.ir.setWidth 64 }))

/-- Outside a body, lcount writes COUNT of its level, clamped to 65,535, with CUR 0; lstride writes STRIDE and REG of
its level. loop, with LEVELS 1 to 6, LEN 1 to 64 and no handler that was entered from a body, captures LEN words after
it when they lie in local memory and no stale line of them was fetched ahead, sets LOOP and every active CUR to 0, and
moves to the first position of the body that issues. Rests on R30, R31, R116, R117, R378. -/
def Obligations.SequencerFormsCompleteAndStartTheBody : Prop :=
  ∀ (s : State) (k a r : RegNo), s.slot.loop = false →
    (s.LinksOk [a] none → k.toNat < 6 →
        exec (.lcount k a) s = .next ((s.popLinks [a]).upd fun t =>
            { t with lcnt := (t.lcnt.setIfInBounds k.toNat (BitVec.ofNat 64 (min (s.src [] a).toNat 65535))) })
          ∧ exec (.lstride k a r) s = .next ((s.popLinks [a]).upd fun t =>
            { t with lstr := (t.lstr.setIfInBounds k.toNat
                (BitVec.ofNat 64 (r.toNat * 2 ^ 51 + (s.src [] a).toNat % 2 ^ 51))) }))
      ∧ (1 ≤ lctlLevels s.slot.lctl → lctlLevels s.slot.lctl ≤ 6 → 1 ≤ lctlLen s.slot.lctl → lctlLen s.slot.lctl ≤ 64 →
          (s.slot.busy && s.slot.tcause.getLsbD 62) = false →
          ∀ key, key % 4 = 0 → (∀ j < lctlLen s.slot.lctl,
              locOf s.coreNo ((s.slot.pc + 4 + BitVec.ofNat 56 (4 * j)).setWidth 64) 4 = .raw (key + 4 * j)) →
            (∀ e ∈ s.slot.ahead, e.2 = s.lineData e.1) →
            ∃ n l, exec .loop s = .next ({ s with drawn := n }.upd fun t =>
              Slot.settle
                { t with
                  ahead := l
                  body := (List.range (lctlLen t.lctl)).map (fun j => BitVec.ofNat 32 (s.mem.read (key + 4 * j) 4)),
                  bodyPc := t.pc + 4,
                  lcnt := t.levels.foldl (fun (l : Vector Dword 6) q =>
                    l.setIfInBounds q (setFld (l.toList.getD q 0) 32 (0 : BitVec 16))) t.lcnt,
                  loop := true } 0))

/-- ld.b, ld.bu, ld.h, ld.hu, ld.w, ld.wu and ld.d with ready links complete for an aligned address in an uncompressed
local memory, and for one in device memory in firmware mode: they write the little-endian bytes there, sign-extended
or zero-extended to 64 bits. In device memory the bytes are those of the core's leased copy or of the line at its
home, and the time stamps move as for any read. stq and its vector form complete at a 32-byte aligned address of an
uncompressed local memory or, in firmware mode, of device memory: the 32 bytes are s(n) to s(n+3), or bits 255:0 of
v(n) once its elements are there. Rests on R107, R108, R206, R221, R222, R245, R246, R383. -/
def Obligations.LoadsExtendAndQuadStoresWrite : Prop :=
  (∀ (s : State) (d a : RegNo) (c : BitVec 4) (i : BitVec 12), s.LinksOk [a] (some d) →
    let va := s.src [] a + i.signExtend 64
    ∀ p ∈ ([(.ldB d a c i, 1, true), (.ldBu d a c i, 1, false), (.ldH d a c i, 2, true), (.ldHu d a c i, 2, false),
        (.ldW d a c i, 4, true), (.ldWu d a c i, 4, false), (.ldD d a c i, 8, false)] : List (Instr × Nat × Bool)),
      let n := p.2.1
      let ext (v : Nat) : Dword :=
        if p.2.2 && (v.testBit (8 * n - 1)) then BitVec.ofInt 64 ((v : Int) - 2 ^ (8 * n)) else BitVec.ofNat 64 v
      (∀ key, s.RawAt va n key false c →
          exec p.1 s = .next ((s.touchKey s.coreNo key false).retire [a] d (ext (s.mem.read key n))))
        ∧ (s.DeviceAt va n false c →
            let r := s.readLine s.coreNo (va.toNat / 64) true (n ≤ s.slot.footh.toNat)
            exec p.1 s
              = .next (r.1.retire [a] d (ext (r.2.toNat / 2 ^ (8 * (va.toNat % 64)) % 2 ^ (8 * n))))))
  ∧ (∀ (s : State) (n a : RegNo) (c : BitVec 4) (o : BitVec 11) (key : Nat), s.LinksOk [a] none →
    let va := s.src [] a + o.signExtend 64 * 32
    s.RawAt va 32 key true c ∨ (s.DeviceAt va 32 true c ∧ key = va.toNat) →
      (n.toNat % 4 = 0 → (s.slot.lm = true → n.toNat < 28) →
        ∃ t, exec (.stq n a c o) s = .next t ∧ t.slot = s.slot
          ∧ t.mem = s.mem.write key 32 ((s.getX n).toNat + 2 ^ 64 * (s.getX (n + 1)).toNat
              + 2 ^ 128 * (s.getX (n + 2)).toNat + 2 ^ 192 * (s.getX (n + 3)).toNat))
      ∧ ((s.slot.getV n).prog = none →
        ∃ t, exec (.stqV n a c o) s = .next t ∧ t.slot = s.slot
          ∧ t.mem = s.mem.write key 32 ((s.slot.getV n).data.toNat % 2 ^ 256)))

/-- st.b, st.h, st.w and st.d with ready links complete for an aligned address in an uncompressed local memory, and
for one in device memory in firmware mode. The bytes stored are the low bytes of s(rs2) at the address the form
computes; every other byte reads as before; no scalar register, flag or other slot state changes. A bit-field store
within one aligned doubleword of uncompressed local memory writes the low bits of s(rs3) to its bits; every other bit
of memory is as before, and all other state but that the die of the bytes is in use and the times that the core and
the line carry (log 106). Rests on R107, R108, R203, R206, R222, R230, R261, R383. -/
def Obligations.StoresWriteTheirBytesOnly : Prop :=
  (∀ (s : State) (d a : RegNo) (c : BitVec 4) (i : BitVec 12), s.LinksOk [a, d] none →
    let va := s.src [] a + i.signExtend 64
    ∀ p ∈ ([(.stB d a c i, 1), (.stH d a c i, 2), (.stW d a c i, 4), (.stD d a c i, 8)] : List (Instr × Nat)),
      ∀ key, s.RawAt va p.2 key true c ∨ (s.DeviceAt va p.2 true c ∧ key = va.toNat) →
        ∃ t, exec p.1 s = .next t ∧ t.slot = s.slot ∧ t.others = s.others
          ∧ (∀ j < p.2, t.mem.get (key + j) = BitVec.ofNat 8 ((s.src [a] d).toNat / 2 ^ (8 * j)))
          ∧ (∀ k, k < key ∨ key + p.2 ≤ k → t.mem.get k = s.mem.get k)
          ∧ (s.RawAt va p.2 key true c →
              t = ({ s.touchKey s.coreNo key true with
                mem := s.mem.write key p.2 ((s.src [a] d).toNat % 2 ^ (8 * p.2)) }).popLinks [a, d]))
  ∧ (∀ (s : State) (d a f : RegNo) (key : Nat), (s.slot.lm = true → d.toNat < 28 ∧ a.toNat < 28 ∧ f.toNat < 28) →
    let w := (s.getX f).toNat % 64 + 1
    let off : Int := (fld (s.getX f) 8 56).toInt
    let va := s.getX a + BitVec.ofInt 64 (off / 8)
    let b := (off % 8).toNat
    let n := (b + w - 1) / 8 + 1
    fld va 56 8 = 0 → va.toNat / 8 = (va + BitVec.ofNat 64 ((b + w - 1) / 8)).toNat / 8 → s.LandsRaw va n key →
    s.interlocked s.ctx key n true true = false →
      ∃ t, exec (.stBits d a f) s = .next t
        ∧ t = { s with mem := t.mem, dies := t.dies, marks := t.marks, core := { s.core with seen := t.core.seen } }
        ∧ (∀ j, j < 8 * n → (t.mem.get (key + j / 8)).getLsbD (j % 8)
            = if b ≤ j ∧ j < b + w then (s.getX d).getLsbD (j - b) else (s.mem.get (key + j / 8)).getLsbD (j % 8))
        ∧ (∀ k, k < key ∨ key + n ≤ k → t.mem.get k = s.mem.get k))

/-- A scalar load or store with ready links whose address has a bit set in 63:56 traps ADDRESS; one with a well-formed
address that is not a multiple of its width traps MISALIGNED; an aligned one in the local region that no row of the
local map holds traps ADDRESS; in firmware mode an aligned one to a line of device memory that is POISON, and that no
declared range holds, traps POISON. TVAL is the address. Nothing else changes but what taking the trap writes, and
that the home of a POISON line is in use; the stores performed before a reply that reports POISON are the step's
(StepRunsTheDecodedInstruction). Rests on R108, R206, R421, R423, R449. -/
def Obligations.MisplacedAccessesTrap : Prop :=
  ∀ (s : State) (d a : RegNo) (c : BitVec 4) (i : BitVec 12), s.LinksOk [a] (some d) → s.LinksOk [a, d] none →
    let va := s.src [] a + i.signExtend 64
    ∀ p ∈ ([(.ldB d a c i, 1), (.ldBu d a c i, 1), (.ldH d a c i, 2), (.ldHu d a c i, 2), (.ldW d a c i, 4),
        (.ldWu d a c i, 4), (.ldD d a c i, 8), (.stB d a c i, 1), (.stH d a c i, 2), (.stW d a c i, 4),
        (.stD d a c i, 8)] : List (Instr × Nat)),
      (2 ^ 56 ≤ va.toNat → exec p.1 s = .next (s.takeTrap { cause := 5, tval := va }))
        ∧ (va.toNat < 2 ^ 56 → va.toNat % p.2 ≠ 0 → exec p.1 s = .next (s.takeTrap { cause := 4, tval := va }))
        ∧ (va.toNat < 2 ^ 56 → va.toNat % p.2 = 0 → locOf s.coreNo va p.2 = .bad →
            exec p.1 s = .next (s.takeTrap { cause := 5, tval := va }))
        ∧ (s.slot.mode = 2 → va.toNat < 2 ^ 40 → va.toNat % p.2 = 0 → s.touchesRange va.toNat p.2 = false →
            s.poisoned (va.toNat / 64) = true →
            exec p.1 s = .next ((s.messageDie (homeDie (va.toNat / 64 * 64))).takeTrap { cause := 22, tval := va }))

/-- For a 4- or 8-byte atomic with ready links at an aligned address of an uncompressed local memory or, in firmware
mode, of device memory outside every range, with nothing outstanding when it releases: the old value goes to rd
(amo.st writes none, a 4-byte value sign-extended), memory takes what the operation makes of the old value and the
operand, and an acquire raises the logical time. In device memory the old value is that of memory, never of a leased
copy, and the time stamps move as for a read served at the home, or as for a store. cas compares with s(rd) and writes
s(rd+1). amo.ld, amo.st, amo.swap and amo.cas of 16 bytes with ready links, at an aligned address of an uncompressed
local memory or, in firmware mode, of device memory outside every range, and with nothing outstanding when they
release, exchange the 16 bytes there with s(d) and s(d+1); cas compares with that pair and writes s(d+2) and s(d+3).
Rests on R222, R236, R239, R244, R247, R248, R249. -/
def Obligations.AtomicsReadAndWriteAtOneMoment : Prop :=
  (∀ (s : State) (d a : RegNo) (q l w : BitVec 1) (sc : BitVec 3) (c : BitVec 4) (key : Nat),
    let size := 4 * 2 ^ w.toNat
    let va := s.src [] a
    let W : BitVec 2 := w.setWidth 2
    let M := 2 ^ (8 * size)
    let old := s.mem.read key size
    let x := (s.src [a] d).toNat % M
    let sg (v : Nat) : Int := if v.testBit (8 * size - 1) then (v : Int) - M else v
    let acq (t : State) : State := if q = 1 then t.syncTime sc.toNat else t
    let res : Dword := BitVec.ofInt 64 (if size = 4 then sg old else old)
    ∀ (look : State) (write : Nat → State), s.AtomicAt va size key c look write →
      (l = 1 → s.outstanding 0xFFFF sc.toNat = false) →
      let put (v : Nat) : State := acq (write v)
      (s.LinksOk [a] (some d) → exec (.amoLd d a q l sc c W) s = .next ((acq look).retire [a] d res))
        ∧ (s.LinksOk [a, d] none → exec (.amoSt d a q l sc c W) s = .next ((put x).popLinks [a, d]))
        ∧ (s.LinksOk [a, d] (some d) →
            exec (.amoSwap d a q l sc c W) s = .next ((put x).retire [a, d] d res)
              ∧ exec (.amoAdd d a q l sc c W) s = .next ((put ((old + x) % M)).retire [a, d] d res)
              ∧ exec (.amoAnd d a q l sc c W) s = .next ((put (old &&& x)).retire [a, d] d res)
              ∧ exec (.amoOr d a q l sc c W) s = .next ((put (old ||| x)).retire [a, d] d res)
              ∧ exec (.amoXor d a q l sc c W) s = .next ((put (old ^^^ x)).retire [a, d] d res)
              ∧ exec (.amoMin d a q l sc c W) s = .next ((put (if sg x < sg old then x else old)).retire [a, d] d res)
              ∧ exec (.amoMax d a q l sc c W) s = .next ((put (if sg old < sg x then x else old)).retire [a, d] d res)
              ∧ exec (.amoMinu d a q l sc c W) s = .next ((put (min old x)).retire [a, d] d res)
              ∧ exec (.amoMaxu d a q l sc c W) s = .next ((put (max old x)).retire [a, d] d res))
        ∧ (s.LinksOk [a] none → (s.slot.lm = true → d.toNat < 28) → d.toNat % 2 = 0 →
            exec (.amoCas d a q l sc c W) s
              = .next (if old = (s.getX d).toNat % M
                  then (put ((s.getX (d + 1)).toNat % M)).retire [a] d res
                  else (acq look).retire [a] d res)))
  ∧ (∀ (s : State) (d a : RegNo) (q l : BitVec 1) (sc : BitVec 3) (c : BitVec 4) (key : Nat),
    let va := s.src [] a
    let old := s.mem.read key 16
    let x := (s.getX d).toNat + 2 ^ 64 * (s.getX (d + 1)).toNat
    let new := (s.getX (d + 2)).toNat + 2 ^ 64 * (s.getX (d + 3)).toNat
    let acq (t : State) : State := if q = 1 then t.syncTime sc.toNat else t
    let pair (t : State) : State := (t.setX d (BitVec.ofNat 64 old)).setX (d + 1) (BitVec.ofNat 64 (old / 2 ^ 64))
    ∀ (look : State) (write : Nat → State), s.AtomicAt va 16 key c look write →
      (l = 1 → s.outstanding 0xFFFF sc.toNat = false) →
      s.LinksOk [a] none → (s.slot.lm = true → d.toNat < 28) → d.toNat % 2 = 0 →
        let put (v : Nat) : State := (acq (write v)).popLinks [a]
        exec (.amoLd d a q l sc c 2) s = .next (pair ((acq look).popLinks [a]))
          ∧ exec (.amoSt d a q l sc c 2) s = .next (put x)
          ∧ exec (.amoSwap d a q l sc c 2) s = .next (pair (put x))
          ∧ exec (.amoCas d a q l sc c 2) s = .next (pair (if old = x then put new
              else (acq look).popLinks [a])))

/-- fence and fence.all always issue. Where none of the slot's earlier accesses of the first mask's classes is
outstanding for the scope the fence completes at once: fence takes in the die's or the module's time when its second
mask is not empty, fence.all always, and fence.all discards the instructions fetched. Otherwise the fence stands in
the slot, and every later access of a class of its second mask is out of turn until the accesses it waits for are
performed; then it completes in the same way. The module's time is that of the scopes DEVICE and SYSTEM, the die's
that of CLUSTER and DIE. That a fence always issues at once and stands in the slot, and what it waits for, is the
model's reading (log 19). Rests on R235, R238, R239, R253, R254, R405, R452. -/
def Obligations.FencesWaitAndTakeInTime : Prop :=
  ∀ (s : State) (a : RegNo) (sc : BitVec 3) (c : BitVec 4) (f : PendFence), (s.slot.lm = true → a.toNat < 28) →
    let b : BitVec 16 := BitVec.ofNat 16 (s.getX a).toNat
    let m : BitVec 16 := BitVec.ofNat 16 ((s.getX a).toNat / 2 ^ 16)
    let drop (t : State) : State := (t.updCore fun c => { c with icache := [] }).upd fun t => { t with ahead := [] }
    let stand (t : State) (f : PendFence) : State := t.upd fun t => { t with fences := t.fences ++ [f] }
    exec (.fence a sc) s
        = .next (if s.outstanding b sc.toNat then stand s (s.fenceOf b m sc false)
          else if m = 0 then s else s.syncTime sc.toNat)
      ∧ exec (.fenceAll sc) s
        = .next (if s.outstanding 0xFFFF sc.toNat then stand (drop s) (s.fenceOf 0xFFFF 0xFFFF sc true)
          else drop (s.syncTime sc.toNat))
      ∧ (f ∈ s.slot.fences → f.after.getLsbD c.toNat = true → s.outOfTurn (s.ctxC c) = true)
      ∧ s.fenceMet (s.fenceOf b m sc false) = !s.outstanding b sc.toNat
      ∧ (s.slot.fences = [f] → s.settleHere = if s.fenceMet f
          then (let t := s.upd fun t => { t with fences := [] }
                let t := if f.after = 0 then t else t.syncTime f.scope.toNat
                if f.all then drop t else t)
          else s)
      ∧ (2 ≤ sc.toNat → s.core.clkts ≤ (s.syncTime sc.toNat).core.clkts
          ∧ (if sc.toNat ≤ 4 then (s.die s.dieNo).dt else s.mt) ≤ (s.syncTime sc.toNat).core.clkts)

/-- The write of a group: an active element takes its value, cut to the width of the result tag; every other element
of the group keeps its bits; the group's registers take the tag and are complete; every other vector register, and
everything outside the slot's vector registers and FFLAGS, is as before. Rests on R9, R10, R14, R23, R26. -/
def Obligations.VectorWriteTouchesActiveElementsOnly : Prop :=
  ∀ (s : State) (d : RegNo) (g w t : Nat) (act : List Nat) (f : Nat → Nat × BitVec 5),
    0 < w → tagMem t ≤ w → 0 < s.lanes → s.lanes ≤ 8 → d.toNat + g ≤ 32 → act.Nodup →
      let q := s.vwrite d g w t act f
      (∀ i, (i + 1) * w ≤ s.regBits * g →
          elemAt (q.group d g) w i = if i ∈ act then (f i).1 % 2 ^ tagMem t else elemAt (s.group d g) w i)
        ∧ (∀ k < g, (q.slot.getV (d + BitVec.ofNat 5 k)).tag = BitVec.ofNat 5 t
            ∧ (q.slot.getV (d + BitVec.ofNat 5 k)).prog = none)
        ∧ (∀ r : RegNo, (r.toNat < d.toNat ∨ d.toNat + g ≤ r.toNat) → q.slot.getV r = s.slot.getV r)
        ∧ q = { s with slot := { s.slot with v := q.slot.v, fflags := q.slot.fflags } }
        ∧ q.slot.fflags = act.foldl (fun e i => e ||| (f i).2) s.slot.fflags

/-- vadd, vsub, vmul, vmin, vmax and vdiv, with legal groups, equal source tags of the current width that the form
accepts and operands that are there, write the element operation of the two sources to the active elements under the
sources' tag; the rounding mode is that of the selector, or RNE where the form does not round. vmac adds the product
to the old destination element, which may be of the widened tag. An RSR rounding advances SRSEED once. Elements go in
ascending order: where a replicated source is the destination, an element already written reads as written; that
order, and vdiv and b1 elements under a prefix, are the model's choice (logs 9, 11). On an F or T tag an element is
the exact result of the modified operands rounded once. On an integer tag outside a prefix it is the sum, difference,
product, minimum, maximum or saturated quotient modulo the width; on b1, mul is exclusive or, min is or and max is
and, by the values 1 and -1 of the codes. Rests on R24, R45, R48, R83, R84, R87, R98, R136, R137, R138, R139, R140. -/
def Obligations.VectorArithmeticResults : Prop :=
  (∀ (s : State) (d a b m : RegNo) (r : BitVec 3),
    let t := s.vtag a
    let t2 := s.vtag d
    let p := s.slot.mods
    let fp := tagIsF t || tagIsT t
    let x (i : Nat) : Nat := elemAt (s.group a s.gN) s.ew i
    let y0 (i : Nat) : Nat := elemAt (s.group b s.gN) s.ew (repIx r i)
    let y (w : Nat) (el : Nat → Nat → Nat) (i : Nat) : Nat :=
      if d = b ∧ repIx r i < i ∧ repIx r i ∈ s.actives m then el (repIx r i) (y0 (repIx r i)) % 2 ^ w else y0 i
    (s.VBinOk d a b m r → ∀ q ∈ ([(.vadd d a b m r, .add), (.vsub d a b m r, .sub), (.vmul d a b m r, .mul),
          (.vmin d a b m r, .min), (.vmax d a b m r, .max), (.vdiv d a b m r, .div)] : List (Instr × VOp)),
        q.2.accepts t = true → ∀ md, (if fp && (q.2.rounds || p.isSome) then s.vmode r else some .rne) = some md →
          let el (i v : Nat) : Nat × BitVec 5 := q.2.elem p md t (s.rword i) (x i) v
          exec q.1 s = .next ((s.vwrite d s.gN s.ew t (s.actives m) fun i =>
            el i (y (tagMem t) (fun j v => (el j v).1) i)).bumpSeed md))
      ∧ (let wide := t ≠ t2 && widens t t2
         let gd := if wide then 2 * s.gN else s.gN
         let wd := if wide then 2 * s.ew else s.ew
         s.Groups [a, b] m → groupOk d gd = true → s.repOk r = true →
         (wide = true → overlaps d gd a s.gN = false ∧ overlaps d gd b s.gN = false) →
         t = s.vtag b → tagReg t = s.ew → (fp || tagIsI t || tagIsN t) = true → (t2 = t ∨ widens t t2 = true) →
         s.vready [a] d m = true → s.readable2 b r = true →
         s.readableAs d gd wd s.vlN = true → s.writableAs d gd wd s.vlN = true →
         ∀ md, (if fp then s.vmode r else some .rne) = some md →
          let el (i v : Nat) : Nat × BitVec 5 := macElem p md t t2 (s.rword i) (x i) v (elemAt (s.group d gd) wd i)
          let res (i : Nat) : Nat × BitVec 5 := el i (y (tagMem t2) (fun j v => (el j v).1) i)
          exec (.vmac d a b m r) s
            = .next ((s.vwrite d gd wd t2 (s.activesAt m d gd wd t2 fun i => (res i).1) res).bumpSeed md)))
  ∧ (∀ (o : VOp) (p : Option Mods) (md : RMode) (t r a b : Nat),
    ((tagIsF t || tagIsT t) = true →
        let y := o.exact (md = .rdn) (modA p (decodeTag t a)) (modB p (decodeTag t b))
        let q := roundTo t md (modSat p) (modPost p t y.val) r
        o.elem p md t r a b = (q.code, y.flags ||| q.flags))
      ∧ ((tagIsI t || tagIsN t) = true → (tagIsF t || tagIsT t || tagIsB t) = false →
          o.elem none md t r a b
            = (match o with
               | .add => codeOf (tagMem t) (intVal t a + intVal t b)
               | .sub => codeOf (tagMem t) (intVal t a - intVal t b)
               | .mul => codeOf (tagMem t) (intVal t a * intVal t b)
               | .min => codeOf (tagMem t) (min (intVal t a) (intVal t b))
               | .max => codeOf (tagMem t) (max (intVal t a) (intVal t b))
               | .div => codeOf (tagMem t) (divInt (tagIsI t) (tagMem t) (intVal t a) (intVal t b)), 0))
      ∧ (VOp.mul.elem none md 21 r a b = (a ^^^ b, 0) ∧ VOp.min.elem none md 21 r a b = (a ||| b, 0)
          ∧ VOp.max.elem none md 21 r a b = (a &&& b, 0)))

/-- vabs, vneg, vnot, vclz, vpopc, vbilv2, vbext2, vmov and vsqrt with a legal group and tag, and vand, vor, vxor,
vshl and vshr, write their function of each active source element under the source tag and raise no flag but vsqrt's.
A shift amount is the second element modulo the width. That a write under a 6-bit tag clears the upper two bits, and
that a replicated source that is the destination reads as already written, is the model's choice (logs 10, 11). Rests
on R83, R136, R137, R138, R139, R145. -/
def Obligations.VectorUnaryAndLogicResults : Prop :=
  ∀ (s : State) (d a b m : RegNo) (z : BitVec 2) (r : BitVec 3),
    let t := s.vtag a
    let w := tagMem t
    let x (i : Nat) : Nat := elemAt (s.group a s.gN) s.ew i
    let y0 (i : Nat) : Nat := elemAt (s.group b s.gN) s.ew (repIx r i)
    let y (w : Nat) (el : Nat → Nat → Nat) (i : Nat) : Nat :=
      if d = b ∧ repIx r i < i ∧ repIx r i ∈ s.actives m then el (repIx r i) (y0 (repIx r i)) % 2 ^ w else y0 i
    let out (f : Nat → Nat) : Host.Outcome State Fault Refusal :=
      .next (s.vwriteQuiet d s.gN s.ew t (s.actives m) f)
    (s.VUnOk d a m →
        (tagNotMx t = true → exec (.vabs d a m z) s = out (fun i => absCode t (x i))
          ∧ exec (.vneg d a m z) s = out (fun i => negCode t (x i)))
        ∧ (tagInt t = true →
          exec (.vnot d a m z) s = out (fun i => 2 ^ w - 1 - x i % 2 ^ w)
            ∧ exec (.vclz d a m z) s = out (fun i => (if x i = 0 then w else w - 1 - (x i).log2) % 2 ^ w)
            ∧ exec (.vpopc d a m z) s = out (fun i => popCount (BitVec.ofNat 64 (x i)) % 2 ^ w))
        ∧ ((tagIsI t || tagIsN t) = true → 2 ≤ w →
          exec (.vbilv2 d a m z) s = out (fun i => interleave (w / 2) [x i % 2 ^ (w / 2), x i / 2 ^ (w / 2)])
            ∧ exec (.vbext2 d a m z) s
              = out (fun i => extract (w / 2) 2 0 (x i) + 2 ^ (w / 2) * extract (w / 2) 2 1 (x i)))
        ∧ (t ≤ 27 → exec (.vmov d a m z) s = out x)
        ∧ (∀ md, s.vmode (z.setWidth 3) = some md → (tagIsF t || tagIsT t) = true →
          exec (.vsqrt d a m z) s = .next ((s.vwrite d s.gN s.ew t (s.actives m) fun i =>
            let q := roundTo t md false (XV.sqrt (decodeTag t (x i))).val (s.rword i)
            (q.code, (XV.sqrt (decodeTag t (x i))).flags ||| q.flags)).bumpSeed md)))
      ∧ (s.VBinOk d a b m r →
        let out2 (f : Nat → Nat → Nat) : Host.Outcome State Fault Refusal :=
          out fun i => f (x i) (y w (fun j v => f (x j) v) i)
        (t ≤ 27 → exec (.vand d a b m r) s = out2 (fun u v => u &&& v)
          ∧ exec (.vor d a b m r) s = out2 (fun u v => u ||| v)
          ∧ exec (.vxor d a b m r) s = out2 (fun u v => u ^^^ v))
        ∧ ((tagIsI t || tagIsN t) = true →
          exec (.vshl d a b m r) s = out2 (fun u v => u * 2 ^ (v % w) % 2 ^ w)
            ∧ exec (.vshr d a b m r) s = out2 (fun u v => codeOf w (intVal t u / 2 ^ (v % w)))))

/-- vceq, vcne, vclt, vcle, vcun and vctst write the result of each active element under the integer tag of the width
and set FLAGS from all of them; on F and T tags they raise NV for the NaNs that R141 names. vcvt writes each active
element rounded to the target tag, in a destination group of the target's width, with the mode of its field; with the
mode RSR it advances SRSEED whatever it rounds. The latter, and the order of elements where the destination is a
replicated source or covers the mask, are the model's choice (logs 11, 79). Rests on R19, R130, R141, R142, R143,
R144. -/
def Obligations.VectorComparesAndConversions : Prop :=
  ∀ (s : State) (d a b m k : RegNo) (u : BitVec 1) (r : BitVec 3),
    let t := s.vtag a
    let x (i : Nat) : Nat := elemAt (s.group a s.gN) s.ew i
    let y0 (i : Nat) : Nat := elemAt (s.group b s.gN) s.ew (repIx r i)
    let y (w : Nat) (el : Nat → Nat → Nat) (i : Nat) : Nat :=
      if d = b ∧ repIx r i < i ∧ repIx r i ∈ s.actives m then el (repIx r i) (y0 (repIx r i)) % 2 ^ w else y0 i
    (s.VBinOk d a b m r → ∀ q ∈ ([(.vceq d a b m r, .eq), (.vcne d a b m r, .ne), (.vclt d a b m r, .lt),
          (.vcle d a b m r, .le), (.vcun d a b m r, .un), (.vctst d a b m r, .tst)] : List (Instr × VCmp)),
        q.2.accepts t = true →
          let z := y s.ew (fun j v => if (q.2.elem t (x j) v).1 then 1 else 0)
          let ts := (s.actives m).map fun i => (q.2.elem t (x i) (z i)).1
          exec q.1 s = .next ((s.vwrite d s.gN s.ew (intTag s.ew) (s.actives m) fun i =>
              (if (q.2.elem t (x i) (z i)).1 then 1 else 0, (q.2.elem t (x i) (z i)).2)).setFlags
            ((if ts.all id then 4#3 else 0) ||| (if ts.any id then 2 else 0) ||| (if ts.any id then 0 else 1))))
      ∧ (let wd := tagReg k.toNat
         let gd := max 1 (s.gN * wd / s.ew)
         ∀ md, s.rmode r.toNat = some md → s.Groups [a] m → groupOk d gd = true →
          (wd = s.ew ∨ overlaps d gd a s.gN = false) → tagReg t = s.ew → s.vready [a] d m = true →
          s.writableAs d gd wd s.vlN = true →
            let res (i : Nat) : Nat × BitVec 5 :=
              if t = k.toNat then (x i, if (decodeTag t (x i)).isSig then 0x10 else 0)
              else
                let q := roundTo k.toNat md (u = 1) (decodeTag t (x i)) (s.rword i)
                (q.code, q.flags)
            exec (.vcvt d a k m u r) s
              = .next ((s.vwrite d gd wd k.toNat (s.activesAt m d gd wd k.toNat fun i => (res i).1) res).bumpSeed md))

/-- vperm takes the source element that the index names, 0 past VLMAX; vslide the element at a signed distance, 0
outside VL; vexpand, vcompress and vrev rearrange by the active elements; vmatch writes the first active element with
the same bits and sets FLAGS; vunpack widens packed fields. The sources are complete and the destination is another
group where the form asks it. That an element moved under a 6-bit tag loses its upper two bits, that vunpack reads a
run of registers from any register on, and that vmatch reads its whole source and mask before it writes, are the
model's choices (logs 10, 11, 12). Rests on R130, R146, R148, R149, R150. -/
def Obligations.VectorMovementResults : Prop :=
  ∀ (s : State) (d a b m : RegNo),
    let t := s.vtag a
    let act := s.actives m
    let x (i : Nat) : Nat := elemAt (s.group a s.gN) s.ew i
    let out (as : List Nat) (f : Nat → Nat) : Host.Outcome State Fault Refusal :=
      .next (s.vwriteQuiet d s.gN s.ew t as f)
    (s.VMoveOk d a m → overlaps d s.gN a s.gN = false →
        ((s.slot.lm = true → b.toNat < 28) →
          exec (.vslide d a b m) s = out act (fun i =>
            let j : Int := (i : Int) + (s.getX b).toInt
            if 0 ≤ j ∧ j < (s.vlN : Int) then x j.toNat else 0))
        ∧ exec (.vexpand d a m) s = out act (fun i => x (act.filter (· < i)).length)
        ∧ exec (.vcompress d a m) s = out (List.range act.length) (fun k => x (act.getD k 0))
        ∧ exec (.vrev d a m) s = out act (fun i => x (s.vlN - 1 - i))
        ∧ (groupOk b s.gN = true → overlaps d s.gN b s.gN = false → 8 ≤ s.ew → s.readable b s.vlN = true →
          exec (.vperm d a b m) s = out act (fun i =>
            if elemAt (s.group b s.gN) s.ew i < s.vlmax then x (elemAt (s.group b s.gN) s.ew i) else 0)))
      ∧ (s.VMoveOk d a m → 16 ≤ s.ew →
          let leader (i : Nat) : Nat := (act.find? fun j => x j = x i).getD i
          let ts := act.map fun i => decide (leader i = i)
          exec (.vmatch d a m) s = .next ((s.vwriteQuiet d s.gN s.ew (intTag s.ew) act leader).setFlags
            ((if ts.all id then 4#3 else 0) ||| (if ts.any id then 2 else 0) ||| (if ts.any id then 0 else 1))))
      ∧ (let w := tagReg t
         let n := ceilDiv (s.vlN * w) s.regBits
         s.Groups [d] m → n ≤ 8 → a.toNat + n ≤ 32 → overlaps d s.gN a n = false → tagInt t = true → w < s.ew →
          s.vready [] d m = true → s.readableAs a n w s.vlN = true →
            exec (.vunpack d a m) s = .next (s.vwriteQuiet d s.gN s.ew (intTag s.ew) act fun i =>
              let c := elemAt (s.group a n) w i
              if tagIsI t then codeOf s.ew (signedOf w c) else c))

/-- vredsum, vredmin, vredmax, vredand, vredor and vredxor with a complete source write element 0 alone, and nothing
when VL is 0. An exact sum is rounded once with the mode in FRM; an f64 sum goes by blocks; an integer sum wraps.
Rests on R60, R130, R147. -/
def Obligations.VectorReductionResults : Prop :=
  ∀ (s : State) (d a m : RegNo), s.VMoveOk d a m →
    let t := s.vtag a
    let w := tagMem t
    let act := s.actives m
    let x (i : Nat) : Nat := elemAt (s.group a s.gN) s.ew i
    let out (v : Nat × BitVec 5) : State := s.vwrite d s.gN s.ew t (if s.vlN = 0 then [] else [0]) fun _ => v
    let ex := (tagIsF t && t ≠ 0) || tagIsT t
    ((ex = true ∨ t = 0 ∨ (tagIsI t || tagIsN t) = true) → ∀ md, (if ex then s.rmode 7 else some .rne) = some md →
        exec (.vredsum d a m) s = .next ((out
          (if ex then
            let p := act.foldl (fun p i => Accum.add (partialSumBits t) (tagLambda t) p (decodeTag t (x i))) {}
            let v := p.value (tagLambda t)
            let q := roundTo t md false v.val (s.rword 0)
            (q.code, v.flags ||| q.flags)
          else if t = 0 then sumF64 (act.map fun i => (i, x i))
          else (act.foldl (fun v i => (v + x i) % 2 ^ s.ew) 0, 0))).bumpSeed md))
      ∧ (tagNotMx t = true →
          exec (.vredmin d a m) s = .next (out (foldExtreme true t (act.map x)))
            ∧ exec (.vredmax d a m) s = .next (out (foldExtreme false t (act.map x))))
      ∧ (tagInt t = true →
          exec (.vredand d a m) s = .next (out (act.foldl (fun v i => v &&& x i) (2 ^ w - 1), 0))
            ∧ exec (.vredor d a m) s = .next (out (act.foldl (fun v i => v ||| x i) 0, 0))
            ∧ exec (.vredxor d a m) s = .next (out (act.foldl (fun v i => v ^^^ x i) 0, 0)))

/-- vcfg with EW 0 to 6 sets VTYPE and VL := min(s(rs1), VLMAX), VLMAX for s0, and writes VL to rd; EW 7 makes VTYPE
illegal with VL 0. vtag changes the tag of one register. vgetx reads an element, sign-extended for i tags and 0 past
VLMAX; vsetx writes one, vbcast every active element, vid the element numbers. That vsetx leaves the whole group
complete, that vgetx reads its element whatever VL is, and that vsetx and vbcast clear the upper two bits under a
6-bit tag, are the model's choices (logs 10, 12, 101). Rests on R11, R14, R15, R18, R130, R133, R134, R135. -/
def Obligations.VectorConfigurationResults : Prop :=
  ∀ (s : State) (d a b m : RegNo) (g : BitVec 2) (e : BitVec 3) (tg : BitVec 5),
    let lk (r : RegNo) : Prop := s.slot.lm = true → r.toNat < 28
    (lk d → lk a →
        let mx := 256 * s.lanes * 2 ^ g.toNat / 2 ^ e.toNat
        let vl := if a = 0 then mx else min (s.getX a).toNat mx
        exec (.vcfg d a g e) s
          = .next (if e = 7 then
              (s.upd fun t => { t with vill := true, vreq := g ++ e, vgrp := 0, vew := 0, vl := 0 }).setX d 0
            else
              (s.upd fun t => { t with vill := false, vreq := g ++ e, vgrp := g, vew := e, vl := BitVec.ofNat 15 vl }).setX d
                (BitVec.ofNat 64 vl)))
      ∧ exec (.vtag d tg) s = .next (s.upd fun q => q.setV d { q.getV d with tag := tg })
      ∧ (lk d → lk b → s.Groups [a] 0 → tagReg (s.vtag a) = s.ew → (s.getX b).toNat < s.vlmax →
          s.readable a ((s.getX b).toNat + 1) = true →
          let c := elemAt (s.group a s.gN) s.ew (s.getX b).toNat
          exec (.vgetx d a b) s = .next (s.setX d
            (if tagIsI (s.vtag a) then BitVec.ofInt 64 (signedOf s.ew c)
             else BitVec.ofNat 64 (c % 2 ^ tagMem (s.vtag a)))))
      ∧ (lk d → lk b → s.Groups [a] 0 → tagReg (s.vtag a) = s.ew → s.vlmax ≤ (s.getX b).toNat →
          exec (.vgetx d a b) s = .next (s.setX d 0))
      ∧ (lk a → lk b → s.Groups [d] 0 → s.writable d ((s.getX a).toNat + 1) = true →
          exec (.vsetx d a b) s = .next (s.vwriteQuiet d s.gN s.ew (s.moveTag d)
            (if (s.getX a).toNat < s.vlmax then [(s.getX a).toNat] else []) fun _ => (s.getX b).toNat))
      ∧ (lk a → s.Groups [d] m → s.vready [] d m = true →
          exec (.vbcast d a m) s
            = .next (s.vwriteQuiet d s.gN s.ew (s.moveTag d) (s.actives m) fun _ => (s.getX a).toNat))
      ∧ (s.Groups [d] m → s.vready [] d m = true →
          exec (.vid d m) s = .next (s.vwriteQuiet d s.gN s.ew (intTag s.ew) (s.actives m) fun i => i))

/-- A vector form that names s28 to s31 while LM is 1 traps ILLEGAL, whatever VTYPE is. Else a binary, compare, logic,
unary, reduction or movement form traps VILL while VTYPE is illegal; with a legal VTYPE it traps ILLEGAL where a
register names no group of it, whatever the tags are; with legal groups it traps VTAGX for a source tag of another
width; and only then a rounding form traps ILLEGAL for a reserved FRM. TVAL is the word, and nothing else changes but
what taking the trap writes. Rests on R14, R20, R66, R129, R131, R185. -/
def Obligations.VectorChecksComeInOrder : Prop :=
  ∀ (s : State) (d a b m k : RegNo) (r : BitVec 3) (z : BitVec 2) (g : BitVec 2) (e : BitVec 3),
    let two := [Instr.vadd d a b m r, .vsub d a b m r, .vmul d a b m r, .vmin d a b m r, .vmax d a b m r, .vdiv d a b m r,
      .vceq d a b m r, .vcne d a b m r, .vclt d a b m r, .vcle d a b m r, .vcun d a b m r, .vctst d a b m r,
      .vand d a b m r, .vor d a b m r, .vxor d a b m r, .vshl d a b m r, .vshr d a b m r]
    let one := [Instr.vsqrt d a m z, .vabs d a m z, .vneg d a m z, .vnot d a m z, .vclz d a m z, .vpopc d a m z,
      .vbilv2 d a m z, .vbext2 d a m z, .vmov d a m z, .vredsum d a m, .vredmin d a m, .vredmax d a m, .vredand d a m,
      .vredor d a m, .vredxor d a m]
    let moves := [Instr.vexpand d a m, .vcompress d a m, .vrev d a m]
    let rest := [Instr.vid d m, .vunpack d a m, .vmatch d a m, .vperm d a b m]
    let ill : Host.Outcome State Fault Refusal := .next (s.takeTrap { cause := 1, tval := s.slot.ir.setWidth 64 })
    let vtagx : Host.Outcome State Fault Refusal := .next (s.takeTrap { cause := 3, tval := s.slot.ir.setWidth 64 })
    (s.slot.lm = true → 28 ≤ k.toNat → ∀ i ∈ [Instr.vcfg k a g e, .vcfg d k g e, .vgetx k a b, .vgetx d a k, .vsetx d k b,
        .vsetx d a k, .vbcast d k m, .vslide d a k m], exec i s = ill)
      ∧ (s.slot.vill = true → ∀ i ∈ two ++ one ++ moves ++ rest ++ [.vmac d a b m r],
          exec i s = .next (s.takeTrap { cause := 2, tval := s.slot.ir.setWidth 64 }))
      ∧ (s.slot.vill = false →
          (groupOk d s.gN = false ∨ s.maskOk m = false → ∀ i ∈ two ++ one ++ moves ++ rest, exec i s = ill)
            ∧ (groupOk a s.gN = false →
              ∀ i ∈ two ++ one ++ moves ++ [.vmatch d a m, .vperm d a b m, .vmac d a b m r], exec i s = ill)
            ∧ (groupOk b s.gN = false ∨ s.repOk r = false → ∀ i ∈ two ++ [.vmac d a b m r], exec i s = ill)
            ∧ (overlaps d s.gN a s.gN = true → ∀ i ∈ moves ++ [.vperm d a b m], exec i s = ill))
      ∧ (s.Groups [d, a] m → tagReg (s.vtag a) ≠ s.ew →
          (∀ i ∈ one, exec i s = vtagx)
            ∧ (groupOk b s.gN = true → s.repOk r = true → ∀ i ∈ two, exec i s = vtagx)
            ∧ (overlaps d s.gN a s.gN = false → ∀ i ∈ moves, exec i s = vtagx)
            ∧ (16 ≤ s.ew → exec (.vmatch d a m) s = vtagx)
            ∧ (groupOk b s.gN = true → 8 ≤ s.ew → overlaps d s.gN a s.gN = false → overlaps d s.gN b s.gN = false →
                exec (.vperm d a b m) s = vtagx))
      ∧ (s.Groups [d, a, b] m → s.repOk r = true → s.vtag a = s.vtag b → tagReg (s.vtag a) = s.ew →
          (tagIsF (s.vtag a) || tagIsT (s.vtag a)) = true → s.vmode r = none →
          ∀ i ∈ [Instr.vadd d a b m r, .vsub d a b m r, .vmul d a b m r, .vdiv d a b m r], exec i s = ill)

/-- vld, vlds and vldx whose operands pass their checks, and whose active elements from the restart element on all lie
in uncompressed local memory, complete once no command of the slot holds their bytes back: each of those elements
takes the bytes at its address (part of a byte when EW is below 8), cut to the width of the result tag, which drops
the upper two bits of a 6-bit code; every other element keeps its bits; the group takes the tag and is complete;
memory, the scalar registers and every other vector register are as before. vldl reads each element from the slice of
its lane. No memory changes; a die whose scratchpad is read is in use, and the core takes in the times that the lines
carry (log 106). That the cut drops the two bits in every move is the model's choice (log 10), that the tag is set at
issue too (log 12), and that a strided footprint is the range from its lowest to its highest byte (log 104). Rests on
R9, R14, R26, R34, R130, R151, R152, R153, R155, R232, R276. -/
def Obligations.VectorLoadsFillTheActiveElements : Prop :=
  ∀ (s : State) (d a b m : RegNo) (c : BitVec 4), 0 < s.lanes → s.lanes ≤ 8 → s.vlN ≤ s.vlmax →
    ∀ p ∈ ([(.vld d a m c, 0, 0), (.vlds d a b m c, 1, b), (.vldx d a b m c, 2, b), (.vldl d a b m c, 3, b)] :
        List (Instr × Nat × RegNo)),
      let mode := p.2.1
      let w := s.ew
      s.VMemOk mode true d a p.2.2 m → s.VTurnOk mode a p.2.2 false c → ∀ key : Nat → Nat,
        (∀ i ∈ s.pending m,
          if mode = 3 then
            s.laneOff a p.2.2 i % (w / 8) = 0 ∧ key i = keyLane s.coreNo (s.laneOf i) (s.laneOff a p.2.2 i)
          else s.RawAt (s.elemAddr mode a p.2.2 i) (max 1 (w / 8)) (key i) false c) →
        ∃ t, exec p.1 s = .next t
          ∧ (∀ i, (i + 1) * w ≤ s.regBits * s.gN → t.elem d w i
              = if i ∈ s.pending m then
                  (if w < 8 then s.mem.read (key i) 1 / 2 ^ (i * w % 8) % 2 ^ w else s.mem.read (key i) (w / 8))
                    % 2 ^ tagMem (s.moveTag d)
                else s.elem d w i)
          ∧ (∀ r ∈ groupRegs d s.gN, (t.slot.getV r).tag = BitVec.ofNat 5 (s.moveTag d) ∧ (t.slot.getV r).prog = none)
          ∧ (∀ r, r ∉ groupRegs d s.gN → t.slot.getV r = s.slot.getV r)
          ∧ t = { s with
              slot := { s.slot with v := t.slot.v }
              dies := t.dies, marks := t.marks, core := { s.core with seen := t.core.seen } }

/-- vst, vsts and vstx whose operands pass their checks, and whose active elements all lie in uncompressed local
memory, complete: memory takes the active elements in ascending order, each its bytes, or its bits alone when EW is
below 8, the upper two bits of a 6-bit element as zero; nothing else changes, but that a die whose scratchpad is
written is in use and the times that the core and the lines carry (log 106). Where a restart element is set, only the
elements from it on are written. vstl writes each element to the slice of its lane. That a strided footprint is the
range from its lowest to its highest byte is the model's choice (log 104). Rests on R14, R34, R151, R152, R153, R154,
R155, R230, R232, R276. -/
def Obligations.VectorStoresWriteTheActiveElements : Prop :=
  ∀ (s : State) (d a b m : RegNo) (c : BitVec 4),
    ∀ p ∈ ([(.vst d a m c, 0, 0), (.vsts d a b m c, 1, b), (.vstx d a b m c, 2, b), (.vstl d a b m c, 3, b)] :
        List (Instr × Nat × RegNo)),
      let mode := p.2.1
      let w := s.ew
      let six := w = 8 ∧ tagMem (s.vtag d) = 6
      let value (i : Nat) : Nat := if six then s.elem d w i % 64 else s.elem d w i
      s.VMemOk mode false d a p.2.2 m → s.VTurnOk mode a p.2.2 true c → ∀ key : Nat → Nat,
        (∀ i ∈ s.pending m,
          if mode = 3 then
            s.laneOff a p.2.2 i % (w / 8) = 0 ∧ key i = keyLane s.coreNo (s.laneOf i) (s.laneOff a p.2.2 i)
          else s.RawAt (s.elemAddr mode a p.2.2 i) (max 1 (w / 8)) (key i) true c) →
        ∃ e mk n, exec p.1 s = .next { s with
          dies := e
          marks := mk
          core := { s.core with seen := n }
          mem := (s.pending m).foldl (fun mm i =>
            if w < 8 then mm.write (key i) 1 (natSetBits (mm.read (key i) 1) (i * w % 8) w (value i))
            else mm.write (key i) (w / 8) (value i)) s.mem }

/-- With EW 64, legal groups that do not overlap, operands that are there and nothing outstanding when it releases, a
vector atomic whose non-zero addresses are distinct, aligned and in uncompressed local memory, or, in firmware mode,
in device memory outside every range, completes: memory takes the element operations in ascending order; elements
whose address is 0 are inactive; each active element but vamo.st's returns the value that memory held at its turn;
with no active element memory is as before. Where active elements share an address the form traps VDUPADDR with the
lowest such address and performs nothing. Rests on R248, R249, R250, R251, R252. -/
def Obligations.VectorAtomicsActInElementOrder : Prop :=
  ∀ (s : State) (d a : RegNo) (q l w : BitVec 1) (sc : BitVec 3) (c : BitVec 4) (key : Nat → Nat),
    let W : BitVec 2 := w.setWidth 2
    let size := 4 * 2 ^ w.toNat
    let act := (List.range s.vlN).filter fun i => s.elem a 64 i ≠ 0
    let ops : List (Instr × Nat) :=
      [(.vamoLd d a q l sc c W, 0), (.vamoSt d a q l sc c W, 1), (.vamoSwap d a q l sc c W, 2), (.vamoCas d a q l sc c W, 3),
       (.vamoAdd d a q l sc c W, 4), (.vamoAnd d a q l sc c W, 5), (.vamoOr d a q l sc c W, 6), (.vamoXor d a q l sc c W, 7),
       (.vamoMin d a q l sc c W, 8), (.vamoMax d a q l sc c W, 9), (.vamoMinu d a q l sc c W, 10),
       (.vamoMaxu d a q l sc c W, 11)]
    s.slot.vill = false → s.ew = 64 → groupOk a s.gN = true → s.complete a = true → s.slot.restart = none →
    0 < s.lanes → s.lanes ≤ 8 → s.vlN ≤ s.vlmax →
    ∀ p ∈ ops,
      let gd := if p.2 = 3 then 2 * s.gN else s.gN
      groupOk d gd = true → overlaps a s.gN d gd = false → s.writable d s.vlN = true → s.readable d s.vlN = true →
      (p.2 = 3 → s.readable (d + BitVec.ofNat 5 s.gN) s.vlN = true) →
      let turn (mm : Memory) (i : Nat) : Memory :=
        match amoValue p.2 (8 * size) (mm.read (key i) size) (s.elem d 64 i) (s.elem (d + BitVec.ofNat 5 s.gN) 64 i) with
        | none => mm
        | some v => mm.write (key i) size v
        ((act.map fun i => s.elem a 64 i).Nodup → (l = 1 → s.outstanding 0xFFFF sc.toNat = false) →
          (∀ i ∈ act, let va := BitVec.ofNat 64 (s.elem a 64 i)
            (s.RawAt va size (key i) false c ∧ s.RawAt va size (key i) true c)
              ∨ (s.DeviceAt va size false c ∧ s.DeviceAt va size true c ∧ key i = va.toNat)) →
          ∃ t, exec p.1 s = .next t ∧ t.mem = act.foldl turn s.mem ∧ t.slot.x = s.slot.x
            ∧ (p.2 ≠ 1 → ∀ k i, act[k]? = some i →
              let old := ((act.take k).foldl turn s.mem).read (key i) size
              t.elem d 64 i = if size = 4 then (sextBytes 4 old).toNat else old))
        ∧ (∀ i ∈ act, ∀ j ∈ act, i ≠ j → s.elem a 64 i = s.elem a 64 j →
          (∀ u ∈ act, ∀ v ∈ act, u ≠ v → s.elem a 64 u = s.elem a 64 v → s.elem a 64 i ≤ s.elem a 64 u) →
          exec p.1 s = .next (s.takeTrap { cause := 6, tval := BitVec.ofNat 64 (s.elem a 64 i) }))

/-- A vector load or store of mode 0 to 2 with EW of at least 8, of which one element's address is malformed or
misaligned or lies in no row of the local map while every pending element below it lies in uncompressed local memory,
takes the trap at that element, with TVAL its address and the element number as the place of restart: the pending
elements below it have been performed, in ascending order, and no other; of a load the progress index of the group is
that element. Where the instruction resumes it performs the elements from that number on
(VectorLoadsFillTheActiveElements, VectorStoresWriteTheActiveElements). That a move under a 6-bit tag cuts the element
to six bits is the model's choice (log 10), and that a strided footprint is the range from its lowest to its highest
byte (log 104). Rests on R14, R26, R27, R34, R108, R151, R152, R153, R206, R252, R276, R377. -/
def Obligations.VectorAccessesStopAtTheElement : Prop :=
  ∀ (s : State) (d a b m : RegNo) (c : BitVec 4) (j : Nat) (key : Nat → Nat),
    0 < s.lanes → s.lanes ≤ 8 → s.vlN ≤ s.vlmax → 8 ≤ s.ew →
    ∀ p ∈ ([(.vld d a m c, 0, 0, true), (.vlds d a b m c, 1, b, true), (.vldx d a b m c, 2, b, true),
        (.vst d a m c, 0, 0, false), (.vsts d a b m c, 1, b, false), (.vstx d a b m c, 2, b, false)] :
        List (Instr × Nat × RegNo × Bool)),
      let mode := p.2.1
      let rb := p.2.2.1
      let ld := p.2.2.2
      let n := s.ew / 8
      let va := s.elemAddr mode a rb j
      s.VMemOk mode ld d a rb m → s.VTurnOk mode a rb (!ld) c → j ∈ s.pending m →
      (∀ i ∈ s.pending m, i < j → s.RawAt (s.elemAddr mode a rb i) n (key i) (!ld) c) →
      ∀ k : BitVec 16, (k = 5 ∧ (2 ^ 56 ≤ va.toNat ∨ (va.toNat % n = 0 ∧ locOf s.coreNo va n = .bad)))
          ∨ (k = 4 ∧ va.toNat < 2 ^ 56 ∧ va.toNat % n ≠ 0) →
        ∃ t : State, exec p.1 s = .next (t.takeTrap { cause := k, tval := va, elem := some (BitVec.ofNat 16 j) })
          ∧ (ld = true → t = { s with
              slot := { s.slot with v := t.slot.v }
              dies := t.dies, marks := t.marks, core := { s.core with seen := t.core.seen } }
            ∧ t.progOf d s.gN s.ew = some j
            ∧ ∀ i, (i + 1) * s.ew ≤ s.regBits * s.gN → t.elem d s.ew i
              = if i ∈ s.pending m ∧ i < j then s.mem.read (key i) n % 2 ^ tagMem (s.moveTag d) else s.elem d s.ew i)
          ∧ (ld = false → t = { s with
              dies := t.dies
              marks := t.marks
              core := { s.core with seen := t.core.seen }
              mem := ((s.pending m).filter (· < j)).foldl (fun mm i => mm.write (key i) n
                (if s.ew = 8 ∧ tagMem (s.vtag d) = 6 then s.elem d s.ew i % 64 else s.elem d s.ew i)) s.mem })

/-- With a record image in uncompressed local memory whose reserved bits are 0, a queue of the task's tree that admits
the depth, and nothing outstanding, no image of the instruction read before: emit enqueues the image with its KEY and
a depth one higher; launch enqueues one record for each remaining team, each in its turn, and steps its register, and
with none left does nothing; suspend and yield, once no command and no fence of the slot is under way, enqueue the
continuation at the task's own depth and leave the slot, retiring, and its stopped commands are dropped. Where the
queue has no room the slot parks with the record, last in the queue's order; a launch parks after the teams that it
has placed. That a launch places its teams in one step is the model's choice (log 30). Where an access is outstanding
emit waits with the image that it has read, and that image, not what memory then holds, is enqueued. Rests on R157,
R174, R176, R190, R192, R193, R194, R195, R196, R198, R340, R382. -/
def Obligations.RecordsGoToTheirQueues : Prop :=
  ∀ (s : State) (k a q d : RegNo) (key : Nat) (u : Queue),
    (s.slot.lm = true → k.toNat < 28 ∧ a.toNat < 28 ∧ q.toNat < 28 ∧ d.toNat < 28) →
    let image : Rec := Rec.ofNat (s.mem.read key 64)
    let keyed : Rec := if k = 0 then image else { image with key := s.getX k }
    let s1 := s.touchKey s.coreNo key false
    let parked (v : Queue) (r : Rec) (leaving : Bool) (l : Option RegNo) (t : State) : State :=
      (t.modQueue v.num fun k => { k with waiters := k.waiters ++ [.slot t.slotNo] }).upd fun q =>
        { q with st := .parked, park := .queue, recd := some r, recQ := v.num.setWidth 16, leaving := leaving, launch := l }
    let put (t : State) (r : Rec) (leaving : Bool) : Host.Outcome State Fault Refusal :=
      .next (if u.room = false then parked u r leaving none t
        else if leaving then (t.enqueue u.num r).retiring else t.enqueue u.num r);
      (s.slot.block = none → s.RawAt (s.getX a) 64 key false → image.reservedSet = false → fld image.w0 0 2 = 0 →
        s.outstanding 0xFFFF 5 = false →
        (s.emitQueue (s.getX q).toNat = some u → s.slot.taskDepth + 1 ≤ u.maxdepth.toNat →
          exec (.emit k a q) s = put s1 (keyed.setDepth (s.slot.taskDepth + 1)) false)
        ∧ (fld (s.getX q) 9 55 = 0 → image.team = true → fld (s.getX d) 0 32 = 0 →
          exec (.launch d a q) s = .next s1)
        ∧ (fld (s.getX q) 9 55 = 0 → image.team = true → fld (s.getX d) 0 32 = 1 → u.room = true →
          s.launchQueue (s.getX q).toNat (fld (s.getX d) 32 32).toNat = some u → s.slot.taskDepth + 1 ≤ u.maxdepth.toNat →
          (∃ g, s.region u.region = some g ∧ image.teamSize ≤ g.budget.toNat) →
          exec (.launch d a q) s = .next (s1.placeTeam d u.num image))
        ∧ (∀ (z : Nat → State) (w : Nat → Queue) (n : Nat), fld (s.getX q) 9 55 = 0 → image.team = true →
          n ≤ (fld (s.getX d) 0 32).toNat → z 0 = s1 →
          let fits (j : Nat) : Prop :=
            (z j).launchQueue (s.getX q).toNat (fld ((z j).getX d) 32 32).toNat = some (w j)
              ∧ s.slot.taskDepth + 1 ≤ (w j).maxdepth.toNat
              ∧ (∃ g, (z j).region (w j).region = some g ∧ image.teamSize ≤ g.budget.toNat)
              ∧ (z j).outstanding 0xFFFF 5 = false
          (∀ j < n, fits j ∧ (w j).room = true ∧ z (j + 1) = (z j).placeTeam d (w j).num image) →
            (n = (fld (s.getX d) 0 32).toNat → exec (.launch d a q) s = .next (z n))
            ∧ (n < (fld (s.getX d) 0 32).toNat → fits n → (w n).room = false →
              exec (.launch d a q) s = .next (parked (w n) image false (some d) (z n)))))
      ∧ (s.liveCmds s.slotNo = false → s.slot.fences = [] → s.slot.packets = 0 → s.slot.loop = false →
          s.offDie u = false → s.slot.taskDepth ≤ u.maxdepth.toNat →
          (s.slot.block = none → s.RawAt (s.getX a) 64 key false → image.reservedSet = false → fld image.w0 0 2 = 0 →
            s.emitQueue (s.getX q).toNat = some u →
            exec (.suspend k a q) s
              = put s1 ((keyed.forMember s.slot).setDepth s.slot.taskDepth) true)
          ∧ (s.emitQueue s.slot.taskQueue = some u → exec (.yield k) s = put s (s.yieldRec k) true))
      ∧ (s.emitQueue (s.getX q).toNat = some u → s.slot.taskDepth + 1 ≤ u.maxdepth.toNat →
          (s.slot.block = none → s.RawAt (s.getX a) 64 key false → image.reservedSet = false → fld image.w0 0 2 = 0 →
            s.outstanding 0xFFFF 5 = true →
            exec (.emit k a q) s
              = .next (s1.upd fun t => { t with block := some (BitVec.ofNat 1024 image.toNat), hold := true }))
          ∧ (∀ v, s.slot.block = some v → s.outstanding 0xFFFF 5 = false →
            let r := Rec.ofNat v.toNat
            r.reservedSet = false → fld r.w0 0 2 = 0 →
            exec (.emit k a q) s = put (s.upd fun t => { t with block := none })
              ((if k = 0 then r else { r with key := s.getX k }).setDepth (s.slot.taskDepth + 1)) false))
      ∧ (∀ t : State, t.retiring.slot.st = .retiring
          ∧ t.retiring.cmds = t.cmds.filter (fun m => m.slot ≠ t.slotNo)
          ∧ t.retiring.mcs = t.mcs.filter (fun r => r.cmd.slot ≠ t.slotNo))

/-- Outside a loop body, with no command and no fence of the slot under way and no remote-reduce packet
unacknowledged, done adds 1 to RETIRED of the task's region and the slot is retiring; the last member of a team to do
so retires the team. A retiring slot of no team then becomes free, and the slot of a member whose team is left becomes
held. Rests on R159, R163, R167, R168, R197, R198, R340. -/
def Obligations.DoneRetiresTheTask : Prop :=
  ∀ (s : State), s.slot.loop = false → s.liveCmds s.slotNo = false → s.slot.fences = [] → s.slot.packets = 0 →
    let s' := s.bump s.slot.regionH ctrRetired 1
    (s'.teamOf s.slotNo s.slot = none → exec .done s = .next s'.retiring)
      ∧ (∀ k, s'.teamOf s.slotNo s.slot = some k →
          let k' := { k with done := s.slot.member :: k.done }
          exec .done s = .next (if k'.done.length = k.size then ((s'.modTeam k fun _ => k').retiring).retireTeam k'
            else (s'.modTeam k fun _ => k').retiring))
      ∧ s'.retiring.slot.st = .retiring
      ∧ ((s.getSlot s.arg.n).st = .retiring →
          (s.teamOf s.arg.n (s.getSlot s.arg.n) = none → exec .slotRetirement s = .next (s.freeSlot s.arg.n))
            ∧ (∀ k, s.teamOf s.arg.n (s.getSlot s.arg.n) = some k → ∃ t, exec .slotRetirement s = .next t
                ∧ (t.getSlot s.arg.n).st = .held))

/-- waita on an aligned word of uncompressed local memory writes the word and takes in the module's time when the
comparison holds, and parks otherwise; vwait completes, and takes in that time, when it holds for every active
element, without one too. bar.arrive counts the member in and writes the phase; bar.wait goes on when the phase is
over and parks otherwise; bar.sync by the last member ends the phase and goes on, and by any other counts its arrival
and parks until the phase is over. lkstall writes the stall count of a link of the core, 0 at the edge of the grid;
lkstallc does so and clears the count; lkcount writes the words waiting at the link and the free entries at the
neighbour, net of reservations. Rests on R166, R185, R188, R199, R200, R201, R202, R203, R204, R239, R405. -/
def Obligations.WaitsBarriersAndLinkStatus : Prop :=
  (∀ (s : State) (d a b m : RegNo) (w : BitVec 1) (c : BitVec 3) (key : Nat → Nat) (k : Team),
    (s.slot.lm = true → d.toNat < 28 ∧ a.toNat < 28 ∧ b.toNat < 28) →
    let size := if w = 1 then 8 else 4
    let y := (s.getX b).toNat % 2 ^ (8 * size)
    let holds (x : Nat) : Bool := waitCond c (8 * size) x y
    (s.RawAt (s.getX a) size (key 0) false →
        let s1 := s.touchKey s.coreNo (key 0) false
        exec (.waita d a b w c) s
          = .next (if holds (s.mem.read (key 0) size) then
              (s1.syncTime 5).setX d (BitVec.ofNat 64 (s.mem.read (key 0) size))
            else s1.parkAt .wait))
      ∧ (s.slot.vill = false → s.ew = 64 → groupOk a s.gN = true → s.maskOk m = true → s.readable a s.vlN = true →
          (m = 0 ∨ s.readable m s.vlN = true) →
          (∀ i ∈ s.actives m, s.RawAt (BitVec.ofNat 64 (s.elem a 64 i)) size (key i) false) →
          let s1 := (s.actives m).foldl (fun t i => t.touchKey s.coreNo (key i) false) s
          exec (.vwait m a b w c) s
            = .next (if (s.actives m).all (fun i => holds (s.mem.read (key i) size)) then s1.syncTime 5
              else s1.parkAt .wait))
      ∧ (s.teamOf s.slotNo s.slot = some k → b.toNat < 16 →
          (s.outstanding 0xFFFF 3 = false → (k.bar b).arrived.getLsbD s.slot.member = false →
              exec (.barArrive d b) s
                = .next ((s.modTeam k fun _ => k.arrive b s.slot.member).setX d ((k.bar b).ph.setWidth 64))
                ∧ (s.slot.arrTok = none → (k.bar b).count + 1 = k.size →
                  exec (.barSync b) s = .next ((s.modTeam k fun _ => k.arrive b s.slot.member).syncTime 3))
                ∧ (s.slot.arrTok = none → (k.bar b).count + 1 ≠ k.size →
                  exec (.barSync b) s = .next ((s.modTeam k fun _ => k.arrive b s.slot.member).parkAt
                    (.barrier (fld b 0 4) (k.bar b).ph true))))
            ∧ (s.slot.inTeam = true →
              exec (.barWait a b) s
                = .next (if phaseOver (k.bar b).ph (fld (s.getX a) 0 32) then s.syncTime 3
                  else s.parkAt (.barrier (fld b 0 4) (fld (s.getX a) 0 32) false)))))
  ∧ (∀ (s : State) (d : RegNo) (k : BitVec 5), (s.slot.lm = true → d.toNat < 28) → k.toNat < 4 →
    let l : Fin 4 := Fin.ofNat 4 k.toNat
    let stall : Dword := if (neighbour s.coreNo l).isNone then 0 else ((s.core.stalls.get l).toNat : BitVec 64)
    exec (.lkstall d k) s = .next (s.setX d stall)
      ∧ exec (.lkstallc d k) s
        = .next ((s.updCore fun c => { c with stalls := c.stalls.set l.val 0 l.isLt }).setX d stall)
      ∧ exec (.lkcount d k) s = .next (s.setX d (match s.linkRoom l with
          | none => 0
          | some n => BitVec.ofNat 64 (((s.core.links.get l).filter fun w => w.word.isSome).length + n * 2 ^ 16))))

/-- WAIT_WAKE and LINK_PARKED_ISSUE let the slot run its instruction again, before any trap that is due;
BAR_WAIT_RESUME does so when the phase is over, and completes a bar.sync whose arrival is counted; QUEUE_ROOM_RESUME
lets the first waiter of a queue with room complete its enqueue: a suspending slot retires, an emitting one goes on,
and a launch that is left no team goes on; a launch in which a trap is due runs on only to take it, its team placed
and counted. Rests on R159, R176, R185, R188, R191, R196, R201, R202. -/
def Obligations.ParkedSlotsGoOn : Prop :=
  ∀ (s : State),
    let f := s.focus s.arg.n
    (f.slot.st = .parked → f.slot.park = .wait → exec .waitWake s = .next (f.upd Slot.rerun))
      ∧ (f.slot.st = .parked → ∀ a b, f.slot.park = .link a b → exec .linkParkedIssue s = .next (f.upd Slot.rerun))
      ∧ (f.slot.st = .parked → ∀ b tok y, f.slot.park = .barrier b tok y → f.barrierMet f.slotNo f.slot = true →
          exec .barWaitResume s
            = .next (if y then (f.syncTime 3).upd fun t => t.unpark.finish else f.upd Slot.rerun))
      ∧ (f.slot.st = .parked → f.slot.park = .queue → ∀ r k, f.slot.recd = some r → f.queue f.slot.recQ.toNat = some k →
          k.canResume (.slot f.slotNo) = true →
          let g := f.modQueue k.num fun k => { k with waiters := k.waiters.drop 1 }
          (f.slot.launch = none → exec .queueRoomResume s
            = .next (if f.slot.leaving then (g.enqueue k.num r).retiring.upd fun t => { t with leaving := false }
              else (g.enqueue k.num r).upd fun t => t.unpark.finish))
          ∧ (∀ d, f.slot.launch = some d →
            let p := (g.placeTeam d k.num r).upd fun t => { t.unpark with launch := none }
            (f.slot.trapDue = true → exec .queueRoomResume s = .next (p.upd fun t => { t with hold := true }))
            ∧ (f.slot.trapDue = false → fld (p.getX d) 0 32 = (0 : BitVec 32) →
              exec .queueRoomResume s = .next (p.upd Slot.finish))))
      ∧ (let t := f.slot.rerun
         t.st = .running ∧ t.hold = true ∧ t.woken = true ∧ t.ir = f.slot.ir ∧ t.pc = f.slot.pc)

/-- In firmware mode, crange of a descriptor in local memory that R255 accepts, for a range within one page of device
memory that overlaps no other, fits the pinned capacity and has no line that is POISON or that the host may hold,
writes 0 and adds the range with the partials its memory holds, its lines at their homes alone, and takes in the
module's time; the dies that hold it are in use, and lines leave their shared caches where the pinned storage leaves
them no room. crange.drop at the base of a range with no such line reads it out and ends it with status 0, and gives 6
where no range has that base. Rests on R1, R220, R224, R226, R227, R255, R256, R449. -/
def Obligations.RangesAreDeclaredAndDropped : Prop :=
  ∀ (s : State) (d a : RegNo) (key : Nat), (s.slot.lm = true → d.toNat < 28 ∧ a.toNat < 28) →
    s.outstanding 0xFFFF 5 = false → s.slot.mode = 2 →
    (s.RawAt (s.getX a) 32 key false →
        let w (i : Nat) : Dword := BitVec.ofNat 64 (s.mem.read key 32 / 2 ^ (64 * i))
        let base := (w 0).toNat
        let len := (w 1).toNat
        let u : Run := { pa := base, off := 0, len := len }
        let r : CRange :=
          { runs := [u], rm := fld (w 2) 12 3, op := fld (w 2) 8 3, fmt := fld (w 2) 0 5, parts := [], ucopies := [] }
        rangeCode (w 0) (w 1) (w 2) (w 3) = 0 → base % 4096 + len ≤ 4096 → base < 2 ^ 40 →
        s.touchesRange base len = false → (∀ k, s.pinned k + r.pinned k ≤ pinLimit) →
        (∀ l ∈ u.lines, s.poisoned l = false ∧ s.hostHolds l true = false) →
          let dies := allDies.filter fun k => r.pinned k ≠ 0
          let s1 := dies.foldl State.touchDie (u.lines.foldl State.onlyHome (s.touchKey s.coreNo key false).syncPoint)
          exec (.crange d a) s
            = .next ((dies.foldl State.fitCache
              { s1 with ranges := { r with parts := s1.rangeStart r } :: s1.ranges }).setX d 0))
      ∧ (let va := (s.getX a).toNat
         va < 2 ^ 40 → va % 64 = 0 →
          (∀ r, s.ranges.find? (fun r => r.base = va) = some r →
            (∀ p ∈ r.lineOffs, s.poisoned p.1 = false ∧ s.hostHolds p.1 true = false) →
            exec (.crangeDrop d a) s = .next ((s.dropRange r).syncPoint.setX d 0))
          ∧ (s.ranges.find? (fun r => r.base = va) = none → exec (.crangeDrop d a) s = .next (s.setX d 6)))

/-- shape.seal of a valid record in local memory takes the lowest free entry of the cluster's table, keeps the record
and writes the handle; shape.fence of a live handle reads the record again and writes 0; shape.drop frees the entry,
advances its sequence number and writes 0. A handle that names no record gives 2^63 + 10, an invalid record 2^63 plus
its code. A command that names the handle, a stopped one included, holds shape.fence and shape.drop of its own slot.
That a seal takes the lowest of the free entries is the model's choice (log 100). Rests on R228, R229, R257, R258,
R259, R260. -/
def Obligations.ShapeRecordsAreSealedFencedAndDropped : Prop :=
  ∀ (s : State) (d a : RegNo) (key : Nat), (s.slot.lm = true → d.toNat < 28 ∧ a.toNat < 28) →
    let clus := clusOfCore s.coreNo
    let img : BitVec 768 := BitVec.ofNat 768 (s.mem.read key 32 + s.mem.read (key + 32) 32 * 2 ^ 256
      + s.mem.read (key + 64) 32 * 2 ^ 512)
    let at_ (va : Dword) : Prop := s.RawAt va 32 key false ∧ s.RawAt (va + 32) 32 (key + 32) false
      ∧ s.RawAt (va + 64) 32 (key + 64) false ∧ locOf s.coreNo va 96 ≠ .bad
    let s1 := ((s.touchKey s.coreNo key false).touchKey s.coreNo (key + 32) false).touchKey s.coreNo (key + 64) false
    let h := s.getX a
    (at_ h →
        (shapeCode img = 0 → ∀ e, s.freeShape clus = some e →
          let x := s.shapeEnt clus e
          exec (.shapeSeal d a) s
            = .next ((s1.setShape clus e { seq := x.seq, live := true, addr := h, image := img }).setX d
            (BitVec.ofNat 64 (x.seq.toNat * 1024 + e))))
        ∧ (shapeCode img ≠ 0 → exec (.shapeSeal d a) s = .next (s1.setX d (BitVec.ofNat 64 (2 ^ 63 + shapeCode img)))))
      ∧ (∀ x, s.shapeOf clus h = some x → s.ownBusy h = false →
          (at_ x.addr → shapeCode img = 0 →
            exec (.shapeFence d a) s = .next ((s1.setShape clus (h.toNat % 1024) { x with image := img }).setX d 0))
          ∧ exec (.shapeDrop d a) s
            = .next ((s.setShape clus (h.toNat % 1024) { x with seq := x.seq + 1, live := false }).setX d 0))
      ∧ (s.shapeOf clus h = none →
          exec (.shapeFence d a) s = .next (s.setX d (BitVec.ofNat 64 (2 ^ 63 + 10)))
            ∧ exec (.shapeDrop d a) s = .next (s.setX d (BitVec.ofNat 64 (2 ^ 63 + 10))))
      ∧ ((s.shapeOf clus h).isSome → s.ownBusy h = true →
          exec (.shapeFence d a) s = .next (s.upd fun t => { t with hold := true })
            ∧ exec (.shapeDrop d a) s = .next (s.upd fun t => { t with hold := true }))
      ∧ (∀ m ∈ s.cmds, m.slot = s.slotNo → m.names h = true → s.ownBusy h = true)

/-- For a cell of generation g: an operation that names another generation is EARLY or STALE and leaves the cell;
proposing to an empty cell wins and decides it, to a decided one loses, to a recycling one is EARLY; reading a decided
cell gives DECIDED; recycling one gives RECYCLING and the next generation; the rest answer EMPTY. An image that is no
cell answers 7 and stays. Rests on R416, R418. -/
def Obligations.CellOperationsFollowTheirTable : Prop :=
  ∀ (v : BitVec 128) (h : BitVec 32) (x : Dword) (who : BitVec 24) (o : CellOp),
    let g := cellGen v
    let st := cellState v
    ((st = 3 ∨ fld v 122 6 ≠ 0) → o.perform v h x who = (7, v))
      ∧ (st ≠ 3 → fld v 122 6 = 0 →
          (h ≠ g → o.perform v h x who = (if (h - g).toNat < 2 ^ 31 then 3 else 2, v))
          ∧ (h = g →
            (st = 0 → CellOp.propose.perform v h x who = (0, cellImage 1 who g x)
              ∧ CellOp.read.perform v h x who = (4, v) ∧ CellOp.recycle.perform v h x who = (4, v))
            ∧ (st = 1 → CellOp.propose.perform v h x who = (1, v) ∧ CellOp.read.perform v h x who = (5, v)
              ∧ CellOp.recycle.perform v h x who = (6, cellImage 2 0 (g + 1) 0))
            ∧ (st = 2 → CellOp.propose.perform v h x who = (3, v) ∧ CellOp.read.perform v h x who = (4, v)
              ∧ CellOp.recycle.perform v h x who = (4, v))))

/-- In firmware mode, for a 16-byte aligned cell in device memory outside every range whose bytes no command of the
slot holds back: where the die holds a decided copy of the named generation, a read or a proposal is served by it
alone, as DECIDED or LOST; else, where the line is neither POISON nor held by the host, the form writes the value and
the status with the generation to its two registers, and the cell's bytes become what the operation leaves; every
other byte is as before. A propose waits for the slot's accesses first, and it alone; a recycle that succeeds begins
its release, which waits for the commands that the slot then has under way and for its packets and peer stores by the
scope (the model's reading, log 34). CELL_RECYCLE_RELEASE_DONE, where the commands, the remote-reduce packets and, for
SYSTEM, the peer stores that a recycle of the cell waits for are done, drops that recycle, and a cell of this module
that is still recycling in that generation becomes empty, once the host does not hold its line; until then the home
takes the line back. Rests on R416, R417, R418, R419, R424, R425, R426, R427. -/
def Obligations.CellFormsActAtTheHome : Prop :=
  (∀ (s : State) (d a v : RegNo), (s.slot.lm = true → d.toNat < 28 ∧ a.toNat < 28 ∧ v.toNat < 28) →
    let w := s.getX d
    let va := (s.getX a).toNat
    let sc := (fld w 32 3).toNat
    let img : BitVec 128 := BitVec.ofNat 128 (s.mem.read va 16)
    let hold : State := s.upd fun t => { t with hold := true }
    fld w 35 29 = 0 → sc < 7 → s.slot.mode = 2 → va < 2 ^ 40 → va % 16 = 0 → s.touchesRange va 16 = false →
    (∀ wr, s.interlocked s.ctx va 16 wr false = false) → d.toNat % 2 = 0 → d ≠ 0 →
      (∀ c, s.cellCopy s.dieNo va (fld w 0 32) = some c →
          let res (st : Nat) : State := ((s.syncTime sc).setX d (fld c.image 0 64)).setX (d + 1)
            (BitVec.ofNat 64 (st * 2 ^ 58 + (fld c.image 64 58).toNat))
          exec (.cellRead d a) s = .next (res 5)
            ∧ exec (.cellPropose d a v) s = .next (if s.outstanding 0xFFFF sc then hold else res 1))
      ∧ (s.poisoned (va / 64) = false → (∀ wr, s.hostHolds (va / 64) wr = false) →
          (s.cellCopy s.dieNo va (fld w 0 32) = none → s.outstanding 0xFFFF sc = true →
            exec (.cellPropose d a v) s = .next hold)
          ∧ ∀ p ∈ ([(.cellPropose d a v, .propose), (.cellRead d a, .read), (.cellRecycle d a, .recycle)] :
              List (Instr × CellOp)),
            (p.2 = .recycle ∨ s.cellCopy s.dieNo va (fld w 0 32) = none) →
            (p.2 = .propose → s.outstanding 0xFFFF sc = false) →
            let x := if p.2 = .propose then s.getX v else 0
            let r := p.2.perform img (fld w 0 32) x (0#2 ++ s.nasum.modNo ++ s.slotNo)
            ∃ t, exec p.1 s = .next t ∧ t.getX d = fld r.2 0 64
              ∧ t.getX (d + 1) = BitVec.ofNat 64 (r.1 * 2 ^ 58 + (fld r.2 64 58).toNat)
              ∧ (∀ q, q ≠ d → q ≠ d + 1 → t.getX q = s.getX q)
              ∧ t.mem = (if r.2 = img then s.mem else s.mem.write va 16 r.2.toNat)
              ∧ t.recycles = (if r.1 = 6 then
                  { pa := va, slot := s.slotNo, gen := cellGen r.2,
                    cmds := if sc = 0 then [] else (s.cmds.filter fun m => m.slot = s.slotNo && !m.stopped).map Cmd.id,
                    peer := decide (sc = 6), packets := decide (4 ≤ sc) } :: s.recycles
                else s.recycles)))
  ∧ (∀ (s : State) (p : PendRecycle),
    let mine (q : PendRecycle) : Bool := decide (q.pa = s.arg.pa) && s.recycleDone q
    s.recycles.find? mine = some p → s.phys p.pa = .device →
      (s.hostHolds (p.pa / 64) true = true →
        exec .cellRecycleReleaseDone s = .next (s.sendBisnp (p.pa / 64) true))
      ∧ (s.hostHolds (p.pa / 64) true = false → ∃ t, exec .cellRecycleReleaseDone s = .next t
        ∧ t.recycles = s.recycles.eraseP mine
        ∧ t.mem = (let v : BitVec 128 := BitVec.ofNat 128 (s.mem.read p.pa 16)
            if cellState v = 2 ∧ cellGen v = p.gen then s.mem.write p.pa 16 (p.gen.toNat * 2 ^ 64) else s.mem)))

/-- penq with an image in uncompressed local memory and nothing outstanding sends the record, its depth one higher, to
the queue's window of its own module or of a peer, and parks until the reply; a reserved bit or a module without a
route traps NOQUEUE, and a depth above 255 EMIT_DEPTH. That its own module needs no entry of the routing table is the
model's choice (log 31). The reply's word goes to rd and the slot goes on, a reply that no penq awaits is dropped (the
model's choice, log 93), and 2^24 cycles without one give refusal 5. A 64-byte window write at offset 0 is enqueued
when the queue is bound with a window, has room and admits the record's depth and bits; otherwise it is refused with
the first code that applies: 1 unbound or without a window, 2 full, 3 its depth, 4 a reserved bit or PC; a write of
another size or offset below 0x40 is refused with 4. The order of these codes, and the 4 of such a write, are the
model's choice (log 105). A refusal counts at the queue, of an unbound number too; a write from offset 0x40 on is
discarded and counts nothing, both the model's choice (log 75). Rests on R175, R177, R409, R431, R432, R433. -/
def Obligations.PeerEnqueueAndWindows : Prop :=
  ∀ (s : State) (d a t : RegNo) (key : Nat), (s.slot.lm = true → d.toNat < 28 ∧ a.toNat < 28 ∧ t.toNat < 28) →
    let w := s.getX t
    let m : BitVec 6 := fld w 16 6
    let r := Rec.ofNat (s.mem.read key 64)
    let data := bytesOfNat 64 (r.setDepth (s.slot.taskDepth + 1)).toNat
    (fld w 12 4 ≠ 0 ∨ fld w 22 42 ≠ 0 ∨ (m ≠ s.nasum.modNo ∧ s.noRoute m = true) →
        exec (.penq d a t) s = .next (s.takeTrap { cause := 12, tval := w }))
      ∧ (fld w 12 4 = 0 → fld w 22 42 = 0 → s.slot.block = none → s.RawAt (s.getX a) 64 key false →
          r.reservedSet = false → fld r.w0 0 2 = 0 →
          let s1 := s.touchKey s.coreNo key false
          let at_ := (s.die s.dieNo).cycle
          (s.slot.taskDepth < 255 → s.outstanding 0xFFFF 6 = false → m = s.nasum.modNo →
            exec (.penq d a t) s
              = .next ((s1.post .windowEnqueue
                { n := s.slotNo, q := BitVec.ofNat 16 (w.toNat % 4096), wants := true, data := data }).parkAt
                (.penq at_ true)))
          ∧ (s.slot.taskDepth < 255 → s.outstanding 0xFFFF 6 = false → m ≠ s.nasum.modNo → s.noRoute m = false →
            exec (.penq d a t) s
              = .next ((s1.send (.peer (s.portTo m)
                  { dest := m, src := s.nasum.modNo, slot := s.slotNo, pa := 0, op := .enqueue (fld w 0 12) data })).parkAt
                (.penq at_ false)))
          ∧ (s.slot.taskDepth = 255 → m = s.nasum.modNo →
            exec (.penq d a t) s
              = .next (s1.takeTrap { cause := 13, tval := BitVec.ofNat 64 (w.toNat % 4096 * 2 ^ 16 + 256) })))
      ∧ ((s.getSlot s.arg.n).inPenq = true →
          exec .penqReply s = .next (((s.focus s.arg.n).setX (fld (s.focus s.arg.n).slot.ir 21 5) s.arg.v).upd
            fun t => t.unpark.finish))
      ∧ ((s.getSlot s.arg.n).inPenq = false → exec .penqReply s = .next s)
      ∧ (∀ at_ own, (s.getSlot s.arg.n).st = .parked → (s.getSlot s.arg.n).park = .penq at_ own →
          at_ + 2 ^ 24 ≤ (s.die (dieOf s.arg.n)).cycle →
          exec .penqTimeout s
            = .next (((s.focus s.arg.n).setX (fld (s.focus s.arg.n).slot.ir 21 5) (BitVec.ofNat 64 (2 ^ 63 + 5))).upd
              fun t => t.unpark.finish))
      ∧ (let v := Rec.ofNat (natOfBytes s.arg.data)
         let q := s.arg.q.toNat
         let note (c : Nat) (t : State) : State :=
          if s.arg.wants then
            t.post .penqReply { n := s.arg.n, v := if c = 0 then 0 else BitVec.ofNat 64 (2 ^ 63 + c) }
          else t
         (s.arg.pa = 0 → s.arg.data.length = 64 →
            (s.queue q = none → exec .windowEnqueue s = .next (note 1 (s.refuse q)))
            ∧ (∀ k, s.queue q = some k →
              let c := if k.win = false then 1 else if k.room = false then 2 else if k.maxdepth.toNat < v.depth.toNat then 3
                else if v.reservedSet = true ∨ fld v.w0 0 2 ≠ 0 then 4 else 0
              exec .windowEnqueue s = .next (note c (if c = 0 then s.enqueue k.num v else s.refuse q))))
          ∧ (s.arg.pa < 0x40 → (s.arg.pa ≠ 0 ∨ s.arg.data.length ≠ 64) →
            exec .windowEnqueue s = .next (note 4 (s.refuse q)))
          ∧ (0x40 ≤ s.arg.pa → exec .windowEnqueue s = .next (note 0 s))
          ∧ aget 0 (s.refuse q).refused q = aget 0 s.refused q + 1
          ∧ (∀ k, s.queue q = some k → s.refuse q
            = ({ s with refused := aset s.refused q (aget 0 s.refused q + 1) } : State).bump k.region ctrDrops 1))

/-- vrred in firmware mode, where no command of the slot holds the bytes back, sends one packet with its active
elements, to its own module for device memory and to the module of a peer address, and counts it as unacknowledged;
that no page bounds the packet there is the model's choice (log 35). A packet whose elements all lie in the range that
holds D is combined into it, element by element, once the host holds no line of it; one whose D lies in no range or at
no element of it, or of which an element lies outside, is discarded whole and answered as refused, and so is one whose
D lies in a line that is POISON; its die is in use either way; the place of an element below a byte is the model's
reading (log 72). The acknowledgement ends the count, and a refusal counts in DROPS. A packet, acknowledgement or
reply for another module leaves on the port of the routing table. A peer's load answers the bytes at the home, or the
poison indication, and while the host holds the line it waits before what came after it; its store writes them there.
Rests on R412, R413, R414, R415, R423, R429, R430. -/
def Obligations.RemoteReduceAndPeerPackets : Prop :=
  ∀ (s : State) (v a k m : RegNo),
    (let va := s.getX a
     let sc := (s.slot.er[3]).toList.getD (4 + k.toNat) 0
     let t := s.vtag v
     let pk (dest : BitVec 6) (pa : Nat) : ReducePacket :=
       { dest := dest, src := s.nasum.modNo, slot := s.slotNo, pa := pa, tag := BitVec.ofNat 5 t, vl := s.vlN,
         elems := (s.actives m).map (fun i => (i, BitVec.ofNat 64 (s.elem v s.ew i))), sx := fld sc 0 16,
         ts := s.core.clkts }
     (s.slot.lm = true → a.toNat < 28) → s.Groups [v] m → tagReg t = s.ew → tagIsMx t = false → tagIsB t = false →
     fld sc 16 48 = 0 → s.readable v s.vlN = true → (m = 0 ∨ s.readable m s.vlN = true) →
       (s.actives m = [] → exec (.vrred v a k m) s = .next s)
       ∧ (s.actives m ≠ [] → s.slot.mode = 2 → s.interlocked s.ctx va.toNat (8 * s.vlN) true false = false →
          (va.toNat < 2 ^ 40 → exec (.vrred v a k m) s
            = .next ((s.post .remoteReducePacket { red := pk s.nasum.modNo va.toNat }).upd
                fun t => { t with packets := t.packets + 1 }))
          ∧ (∀ d off, va.toNat < 2 ^ 52 → isLocal va = false → s.phys va.toNat = .peer d off →
              exec (.vrred v a k m) s
                = .next ((s.send (.reduce (s.portTo d) (pk d off))).upd fun t => { t with unacked := t.unacked + 1 }))))
      ∧ (let p := s.arg.red
         let u := s.messageDie (homeDie p.pa)
         let refused : Host.Outcome State Fault Refusal := .next (u.answer p.src p.slot .refused true)
         (s.poisoned (p.pa / 64) = true → exec .remoteReducePacket s = refused)
          ∧ (s.rangeAt p.pa = none → exec .remoteReducePacket s = refused)
          ∧ (∀ r, s.poisoned (p.pa / 64) = false → s.rangeAt p.pa = some r →
              ((r.offOf p.pa).getD 0 * 8 % max 1 r.ebits ≠ 0 → exec .remoteReducePacket s = refused)
              ∧ ((∃ e ∈ p.elems, s.packetElem p r e.1 = none) → exec .remoteReducePacket s = refused)
              ∧ ((r.offOf p.pa).getD 0 * 8 % max 1 r.ebits = 0 → (∀ e ∈ p.elems, s.packetElem p r e.1 ≠ none) →
                (∀ e ∈ p.elems, s.hostHolds ((p.pa + e.1 * r.ebits / 8) / 64) true = false) →
                let parts := p.elems.foldl (fun ps e =>
                  let j := (s.packetElem p r e.1).getD 0
                  ps.set j (r.combine (ps.getD j {}) (r.packetPart p.tag.toNat p.sx.toInt e.2.toNat))) r.parts
                let lines := (p.elems.map fun e => (p.pa + e.1 * r.ebits / 8) / 64).eraseDups
                exec .remoteReducePacket s
                  = .next ((lines.foldl (fun t l => t.landPacket p l) (u.setRange { r with parts := parts })).answer
                    p.src p.slot .done true))))
      ∧ (let b := if s.arg.ack = .refused then s.bump (s.getSlot s.arg.n).regionH ctrDrops 1 else s
         exec .acknowledgementReturn s = .next (b.modSlot s.arg.n fun t =>
          if s.arg.wants then { t with packets := t.packets - 1 } else { t with unacked := t.unacked - 1 }))
      ∧ (∀ (d : BitVec 6) (q : BitVec 3) (p : PeerPacket) (e : ReducePacket) (n : SlotNo) (c : AckKind) (x : BitVec 512)
          (y : Bool), d ≠ s.nasum.modNo → s.noRoute d = false → p.dest = d → e.dest = d →
          let o : BitVec 3 := BitVec.ofNat 3 (s.nasum.route[d.toNat]'d.isLt).toNat
          ∀ z ∈ [(OutMsg.peer q p, OutMsg.peer o p), (.reduce q e, .reduce o e), (.ack q d n c, .ack o d n c),
              (.reply q d n x y, .reply o d n x y)],
            s.arg.msg = z.1 → exec .packetForwarding s = .next (s.send z.2))
      ∧ (let p := s.arg.peer
         (s.poisoned (p.pa / 64) = true → s.noRoute p.src = false → ∀ n, p.op = .load n → exec .peerAccessPacket s
            = .next ((s.messageDie (homeDie p.pa)).send (.reply (s.portTo p.src) p.src p.slot 0 true)))
          ∧ (s.poisoned (p.pa / 64) = false → s.hostHolds (p.pa / 64) false = true → ∀ n, p.op = .load n →
              exec .peerAccessPacket s
                = .next { s.sendBisnp (p.pa / 64) false with
                    inbox := (.peerAccessPacket, s.arg) :: (s.sendBisnp (p.pa / 64) false).inbox })
          ∧ (s.poisoned (p.pa / 64) = false → s.hostHolds (p.pa / 64) false = false → s.rangeAt p.pa = none →
              s.noRoute p.src = false → ∀ n, p.op = .load n → exec .peerAccessPacket s
                = .next (((s.touchDie (homeDie p.pa)).recallOwner (p.pa / 64) false).send
                  (.reply (s.portTo p.src) p.src p.slot (BitVec.ofNat 512 (s.mem.read p.pa n)) false)))
          ∧ (s.poisoned (p.pa / 64) = false → s.hostHolds (p.pa / 64) true = false → s.rangeAt p.pa = none →
              ∀ data, p.op = .store data → ∃ t, exec .peerAccessPacket s = .next t
                ∧ t.mem = s.mem.write p.pa data.length (natOfBytes data)))

/-- mq.copy, sl.load, pe.clear, pe.load, pe.mma, pe.store, ce.run, gx.state, gx.prim, gx.flush, gx.end, gx.commit and
bv.build, with a completion word that may be written, live handles and operands that pass their checks, issue a
command that captures the engine's registers and holds the named interlock entries, or wait with what they have
captured, for room, for their entries and for the vector registers that they name, and issue it as it was captured.
gx.state reads its block first, as one access in its place, and keeps it while it waits for room. gx.commit reads the
colours that are readable and goes on reading as others become so. That a stream load of VL 0 completes at once, what
the plane engine and gx.prim judge at issue, that a commit of a stopped command may be issued again, how gx.state
reads its block, and the four entries of a chain are the model's choices (logs 42, 43, 45, 46, 94, 98). Rests on R273,
R276, R292, R296, R307, R310, R315, R316, R326, R344, R351, R357. -/
def Obligations.EngineInstructionsIssueCommands : Prop :=
  ∀ (s : State) (a b v : RegNo) (t : BitVec 2) (q : BitVec 4),
    let er (e i : Nat) : Dword := s.slot.ereg e i
    let c := s.ctxOf s.slotNo true
    let shp (h : BitVec 32) : BitVec 768 := (s.shapeEnt (clusOfCore s.coreNo) (handleEntry (h.setWidth 64))).image
    (s.CwaOk 0 → s.namesLink [a, b] = false →
      let src := shp (fld (er 0 8) 0 32)
      let dst := shp (fld (er 0 8) 32 32)
      let prog := copyProg (er 0 11)
      s.HandlesOk ((fld (er 0 8) 0 32).setWidth 64 :: if prog = 1 then [(fld (er 0 8) 32 32).setWidth 64] else []) →
      copyCommonOk (er 0 11) (er 0 12) = true → (prog = 1 → romCopyOk src dst (er 0 9) (er 0 10) (er 0 11) = true) →
        s.Issues (.mqCopy a b) { s.capturedCmd 0 with
          a := s.getX a, b := s.getX b
          locks := s.shapeLock c src false ::
            (if prog = 1 then [s.shapeLock c dst true] else if er 0 10 = 0 then []
              else [s.lockOf c (er 0 9).toNat ((er 0 9).toNat + (er 0 10).toNat) true]) } id)
      ∧ (s.CwaOk 2 → s.namesLink [a] = false → s.slot.vill = false →
        let sh := shp (fld (er 2 4) 0 32)
        s.HandlesOk [(fld (er 2 4) 0 32).setWidth 64] → (fld (er 2 4) 32 32 : BitVec 32) = 0 →
        (fld (er 2 5) 32 32 : BitVec 32) = 0 → groupOk v s.gN = true → tagReg (finalTag sh) = s.ew →
        lookupsOk (shapeFmt sh) (shapeXfs sh) = true →
          s.Issues (.slLoad a v) { s.capturedCmd 2 with
            a := s.getX a
            locks := if s.vlN = 0 then [] else s.slLocks c sh (fld (er 2 5) 0 32 : BitVec 32).toNat s.vlN
            finished := decide (s.vlN = 0) }
            (fun p => (p.setTag v s.gN (finalTag sh)).setProg v s.gN s.ew (if s.vlN = 0 then none else some 0))
            (s.writable v s.vlN))
      ∧ (s.CwaOk 3 →
        let m := s.planeCmd
        s.Issues (.peClear t q) m id
          ∧ (m.operandsOk = true → cdOk (er 3 19) (er 3 20) (cfmtCtag (er 3 19)) = true →
            s.Issues (.peLoad t q) { m with locks := [cdLock s c (er 3 19) (er 3 20) (cfmtCtag (er 3 19)) false] } id)
          ∧ (let st := (fld (er 3 22) 0 32 : BitVec 32).toNat
             m.operandsOk = true → m.kext ≠ 0 → st < m.ns → (m.tagA = 0 → m.korg % 128 = 0) →
            s.Issues (.peMma t q) { m with
              pos := st
              locks := (stepBytes (er 3 16) m.wa (er 3 17) m.wb st (m.ns - st)).map fun p =>
                { segs := spadSegs s.coreNo p.1 p.2, wr := false } }
              fun p => { p with slot := p.slot.setEreg 3 22 0 })
          ∧ (cdOk (er 3 19) (er 3 20) (cfmtDtag (er 3 19)) = true → m.storeMode < 6 →
             (fld (m.sc.toList.getD (cfmtSc (er 3 19)) 0) 16 48 : BitVec 48) = 0 →
            s.Issues (.peStore t q) { m with locks := [cdLock s c (er 3 19) (er 3 20) (cfmtDtag (er 3 19)) true] }
              fun p => if m.storeMode = 5 then { p with slot := { p.slot with srseed := p.slot.srseed + 1 } } else p))
      ∧ (s.CwaOk 4 → (s.capturedCmd 4).chainOk = true →
        s.Issues (.ceRun q) { s.capturedCmd 4 with locks := s.chainLocks c (s.capturedCmd 4) } id)
      ∧ (s.CwaOk 5 →
        let m := s.capturedCmd 5
        let n := (fld (er 5 6) 0 32 : BitVec 32).toNat
        (gxPrimOk (er 5 5) (er 5 6) (er 5 7) (er 5 8) = true →
          s.Issues .gxPrim { m with
            locks := if n = 0 then [] else [s.lockOf c (er 5 5).toNat ((er 5 5).toNat + 64 * n) false]
            finished := decide (n = 0) } id)
        ∧ s.Issues .gxFlush m id ∧ s.Issues .gxEnd m id
        ∧ (let block (v : Nat) : Cmd := { m with data := (List.range 8).map fun i => BitVec.ofNat 64 (v / 2 ^ (64 * i)) }
           (fld (er 5 4) 0 6 : BitVec 6) = 0 →
            (∀ key, (fld (er 5 4) 56 8 : BitVec 8) = 0 → s.LandsRaw (er 5 4) 64 key →
              s.outOfTurn (s.ctxCmd m) = false →
              s.meetsHeld s.slotNo 5 [s.lockOf (s.ctxCmd m) (er 5 4).toNat ((er 5 4).toNat + 64) false] = false →
              let v := s.mem.read key 64
              (s.gxBlock (block v)).ok = true →
                let z := s.touchKey s.coreNo key false
                exec .gxState s = .next (if s.canIssue s.slotNo 5 [] then { z with
                    cmds := (s.cmds.filter fun k => !(k.slot = s.slotNo && k.eng.toNat = 5 && k.stopped)) ++ [block v]
                    nextCmd := s.nextCmd + 1
                    slot := s.slot.countCmd 5 1 0 }
                  else { z with slot := { s.slot with hold := true, captured := some (block v) } })))
        ∧ (∀ tr k, s.namesLink [a, b] = false → s.slot.vill = false → (s.ew = 8 ∨ s.ew = 16) → groupOk v s.gN = true →
          4 * rateCount (fld (s.getX a) 32 3) * s.ew ≤ s.regBits * s.gN → s.vtag v = (if s.ew = 8 then 19 else 2) →
          s.commitTask s.dieNo (s.getX a) (s.getX b) = some (tr, k) → s.committed k = false →
            let c5 := { m with
              a := s.getX a, b := s.getX b
              locks := [s.lockOf c (tr.maskRange k.mask).1 (tr.maskRange k.mask).2 true] }
            s.Issues (.gxCommit a b v) c5
              (fun p => (p.setTask s.dieNo tr k fun j => { j with commit := some s.nextCmd }).readColours c5)
              ((groupRegs v s.gN).all fun r => (s.slot.getV r).rdp.isNone)))
      ∧ (s.CwaOk 6 → (s.capturedCmd 6).bvOk = true →
        let m := s.capturedCmd 6
        let lk (i z : Nat) (wr : Bool) : Lock := s.lockOf c (er 6 i).toNat ((er 6 i).toNat + z * m.bvN) wr
        s.Issues .bvBuild { m with locks := [lk 4 32 false, lk 6 128 true, lk 7 4 true, lk 8 64 true] } id)
      ∧ (∀ m, s.slot.captured = some m → s.namesLink [a, b] = false →
        ∀ i ∈ ([.mqCopy a b, .peClear t q, .peLoad t q, .ceRun q, .gxState, .gxPrim, .bvBuild] : List Instr),
          s.Issues i { m with id := s.nextCmd } id)

/-- ereg.w writes the bits that software may write and clears sticky bits, ereg.r reads, waiting or trapping as the
rules say. sb.arm, sb.reset, sb.state and sb.count act on the core's barrier in the order that one cycle gives them,
arms before deliveries, then resets, then judgements, and count as issued and done; one whose turn in the cycle is
over is tried again, the model's reading (log 95); sb.wait completes on DONE, traps STAGE_OVERRUN on OVERSHOOT and
parks otherwise; a released waiter goes on. Rests on R271, R273, R284, R285, R341, R342, R343, R349. -/
def Obligations.EngineRegistersAndStageBarriers : Prop :=
  ∀ (s : State) (e : BitVec 3) (i : BitVec 7) (r : RegNo) (b : BitVec 4), (s.slot.lm = true → r.toNat < 28) →
    let k := e.toNat
    let n := i.toNat
    let v := s.getX r
    let q := s.sbar b
    let j := s.updCore fun c => c.setSbar b.toNat { q with cyc := s.now, rank := 3 }
    let bars (r : Nat) (z : StageBar) : State := s.setSbar s.coreNo b.toNat { z with cyc := s.now, rank := r }
    let count (c : State) : State := { c with slot := c.slot.countCmd 1 1 1 }
    let turn (r : Nat) : Prop := q.cyc ≠ s.now ∨ q.rank ≤ r
    let held : Host.Outcome State Fault Refusal := .next (s.upd fun t => { t with hold := true })
    (eregRo k n = false → (n = 0 → (fld v 7 57 : BitVec 57) = 0 ∧ (fld v 4 3 : BitVec 3) ≠ 7) →
        let new := ((s.slot.ereg k n &&& ~~~eregRw k n) ||| (v &&& eregRw k n)) &&& ~~~(v &&& eregW1c k n)
        exec (.eregW e i r) s = .next (if eregWaits k n && s.liveOn s.slotNo k then s.upd fun t => { t with hold := true }
          else s.upd fun t => t.setEreg k n new))
      ∧ (eregRo k n = true → exec (.eregW e i r) s = .next (s.takeTrap { cause := 1, tval := s.slot.ir.setWidth 64 }))
      ∧ exec (.eregR e i r) s
        = .next (s.setX r (if k = 5 ∧ n = 9 then (s.die s.dieNo).gfx.gstat else s.slot.ereg k n))
      ∧ (v.toNat < 2 ^ 32 → turn 0 → q.st ≠ .overshoot → (q.st = .opened → q.expect.toNat + v.toNat < 2 ^ 32) →
        exec (.sbArm r b) s = .next (count (bars 0
          (if q.st = .opened then
            { q with expect := q.expect + BitVec.ofNat 32 v.toNat
                     st := if q.got.toNat = q.expect.toNat + v.toNat then .done else .opened }
          else { st := if v = 0 then .done else .opened, expect := BitVec.ofNat 32 v.toNat, got := 0 }))))
      ∧ (v.toNat < 2 ^ 32 → turn 0 → q.st = .overshoot →
        exec (.sbArm r b) s = .next (s.takeTrap { cause := 15, tval := q.got.setWidth 64 }))
      ∧ (2 ^ 32 ≤ v.toNat ∨ (turn 0 ∧ q.st = .opened ∧ 2 ^ 32 ≤ q.expect.toNat + v.toNat) →
        exec (.sbArm r b) s = .next (s.takeTrap { cause := 1, tval := s.slot.ir.setWidth 64 }))
      ∧ (v.toNat < 2 ^ 32 → ¬turn 0 → exec (.sbArm r b) s = held)
      ∧ (turn 2 → exec (.sbReset b) s = .next (count (bars 2 {})))
      ∧ (¬turn 2 → exec (.sbReset b) s = held)
      ∧ exec (.sbState r b) s = .next ((count j).setX r
        (match q.st with | .idle => 0 | .opened => 1 | .done => 2 | .overshoot => 3))
      ∧ exec (.sbCount r b) s = .next ((count j).setX r (q.expect ++ q.got))
      ∧ exec (.sbWait b) s = .next (match q.st with
        | .done => count (j.syncTime 5)
        | .overshoot => (count j).takeTrap { cause := 15, tval := q.got.setWidth 64 }
        | _ => { j with slot := { j.slot with st := .parked, park := .stage b } })
      ∧ (let z := s.focus s.arg.n
         z.slot.st = .parked →
          (∀ got, z.slot.park = .stageGo true got →
            exec .sbWaitResume s = .next ((count (z.syncTime 5)).upd fun t => t.unpark.finish))
          ∧ (∀ got, z.slot.park = .stageGo false got →
            exec .sbWaitResume s = .next (((count z).upd Slot.unpark).takeTrap { cause := 15, tval := got.setWidth 64 })))

/-- A step of a command whose turn it is in its slot's order: MQ_COPY_PIECE of a piece that can be performed and whose
accesses succeed moves the bits of its granule, leaving the bits that a later element of a piece performed before has
written, counts the bytes at the barrier, and finishes the command with the last piece. MC_INVOCATION starts the next
part with the registers that R345 lists. SL_LOAD_ROW lands the next row, as far as the group reaches, and moves the
progress index. ENGINE_COMMAND_COMPLETE stores the completion word, removes the command and counts it; ENGINE_FAULT
stops it, keeps it, counts it and makes its trap due. That a copy whose ranges overlap reads its source as it stood,
that an element without a byte on the deciding side forms a piece of its own, and the order of a stream load's
transformations are the model's readings (logs 42, 71, 88). Rests on R274, R282, R283, R285, R286, R345, R351, R352,
R382. -/
def Obligations.CopiesAndStreamLoadsMoveOn : Prop :=
  ∀ (s : State) (m : Cmd), s.cmd s.arg.c = some m →
    let c := s.ctxCmd m
    let more (t : State) (f : Cmd → Cmd) : State := { t with cmds := t.cmds.map fun k => if k.id = m.id then f k else k }
    let fin (t : State) : State := more t fun k => { k with finished := true, locks := [] }
    (m.eng = 0 → m.finished = false → s.outOfTurn c = false →
      (copyProg (m.reg 11) = 1 →
        let j := s.copyJob m
        (j.parts = [] → exec .mqCopyPiece s = .next (fin s))
        ∧ ∀ g, j.pieces[s.arg.t]? = some g → s.pieceReady m g = true → s.deliverTurn m = true →
          ∀ snap t1, (if m.pos = 0 && s.rangesMeet c (shapeBounds j.src) (shapeBounds j.dst) then
            State.readSources c j (shapeCount j.dst) 0 s else .ok m.snap s) = .ok snap t1 →
        let mine := j.parts.filter fun p => p.gran = g
        let laid := if shapeMeetsItself j.dst then j.parts.filter fun p => m.served.contains p.gran else []
        ∀ t2, State.copyParts c { j with snap := snap } laid mine t1 = .ok () t2 →
          let bits := (mine.map CopyPart.n).sum
          let last := (s.piecesLeft m).length = 1
          let k := if last then (m.bits + bits + 7) / 8 - m.aux else bits / 8
          let t := (more (t2.touchMemCore (s.pieceCore c j g)) fun q =>
            { q with pos := m.pos + 1, bits := m.bits + bits, aux := m.aux + k, snap := snap
                     served := m.served ++ [g] }).deliverFor m k
          exec .mqCopyPiece s = .next (if last then fin t else t))
      ∧ (let b := shapeBounds (s.cmdShape m (fld (m.reg 8) 0 32))
         3 ≤ copyProg (m.reg 11) → m.pos < partCount b →
          let at_ := s.servingCore c (BitVec.ofNat 64 (partOf b m.pos).1) .read
          ∃ run : McRun, exec .mcInvocation s
              = .next { (more (s.touchMemCore at_) fun q => { q with pos := m.pos + 1 }) with mcs := s.mcs ++ [run] }
            ∧ run.core = at_ ∧ run.cmd = m ∧ run.j = m.pos ∧ run.pc = 0 ∧ run.count = 0 ∧ run.buf = []
            ∧ run.lo = b.1 ∧ run.hi = b.2
            ∧ run.m.toList = [0, BitVec.ofNat 64 (partOf b m.pos).1, BitVec.ofNat 64 (partOf b m.pos).2, m.a, m.b, m.reg 8,
                m.reg 9, m.reg 10, m.reg 11, m.reg 12, (coreOf m.slot).setWidth 64, BitVec.ofNat 64 m.pos, 0, 0, 0, 0]))
      ∧ (m.eng = 2 → m.finished = false → s.outOfTurn c = false →
        let z := s.focus m.slot
        let w := 2 ^ m.ew.toNat
        let n := m.pos * (512 / w)
        let k := min (512 / w) (m.vl - n)
        ∀ l t1, State.slElems (z.ctxCmd m) (z.cmdShape m (fld (m.reg 4) 0 32)) m.a.toNat
            (fld (m.reg 5) 0 32 : BitVec 32).toNat k n z = .ok l t1 →
          let t := more ((l.zipIdx.foldl (fun t p =>
              if n + p.2 < t1.vlmaxOf (2 ^ m.grp.toNat) w
              then t.setElem (fld m.word 6 5) w (n + p.2) p.1 else t) t1).setProg (fld m.word 6 5)
            (2 ^ m.grp.toNat) w (if m.vl ≤ n + k then none else some (n + k))) fun q => { q with pos := m.pos + 1 }
          exec .slLoadRow s = .next (if m.vl ≤ n + k then fin t else t))
      ∧ (let gone (t : State) : State :=
          { t with cmds := t.cmds.filter fun k => k.id ≠ m.id }.modSlot m.slot fun t => t.countCmd m.eng.toNat 0 1
         m.finished = true ∨ s.gxDrained m = true →
          (m.reg 2 = 0 → exec .engineCommandComplete s = .next (gone s))
            ∧ (∀ key, m.reg 2 ≠ 0 → s.outOfTurn (s.ctxDone m) = false → locOf (coreOf m.slot) (m.reg 2) 8 = .raw key →
              exec .engineCommandComplete s
                = .next (gone { s.touchKey (coreOf m.slot) key true with mem := s.mem.write key 8 (m.reg 3).toNat })))
      ∧ exec .engineFault s
        = .next ((more { s with
              cmds := s.cmds.filter fun k => !(k.slot = m.slot && k.eng.toNat = m.eng.toNat && k.stopped) }
            fun k => { k with stopped := true, finished := false }).modSlot m.slot fun t =>
          { t.countCmd m.eng.toNat 0 1 with
            efaults := t.efaults ++ [{ eng := m.eng, info := s.arg.trap }] })

/-- A pe.mma step whose tile is EMPTY or has the command's pair, and whose bytes lie in the scratchpad or have been
read, adds its products to the tile; pe.clear empties it; pe.load enters C; pe.store writes the rounded D. The
accesses of a step keep their place in the slot's order, while its work on the tile is ordered within its stream
alone: pe.mma and pe.load may read before they act on the tile, pe.store may read its tile before it writes.
CHAIN_STEP performs its pattern entry, which it reads once, and commits the boundary, END finishes the command, and
CHAIN_FORM reports the step and its reason. The pattern, the weights and the inputs are read as they stood before the
command where it writes over them, and the interlock entries of what has been read for the last time are released.
BUILD_ITEM reads an input, sorts and clusters, and writes a node, whose bytes for absent children depend on the inputs
and the radius alone. What the rules leave to a reading here is the model's (logs 7, 43, 44, 47, 63). Rests on R277,
R292, R293, R294, R295, R297, R305, R306, R309, R311, R312, R338. -/
def Obligations.PlaneChainAndBuildSteps : Prop :=
  ∀ (s : State) (m : Cmd), s.cmd s.arg.c = some m → m.finished = false → s.outOfTurn (s.ctxCmd m) = false →
    let c := s.ctxCmd m
    let core := coreOf m.slot
    let more (t : State) (f : Cmd → Cmd) : State := { t with cmds := t.cmds.map fun k => if k.id = m.id then f k else k }
    let fin (t : State) : State := more t fun k => { k with finished := true, locks := [] }
    let flags (t : State) (e i : Nat) (f : BitVec 5) : State :=
      t.modSlot m.slot fun q => q.setEreg e i (q.ereg e i ||| f.setWidth 64)
    (m.eng = 3 → s.streamReady m = true →
      let q := (s.getCore core).tile m.tile
      let pair := some (BitVec.ofNat 5 m.tagA, BitVec.ofNat 5 m.tagB)
      let put (t : State) (z : PTile) : State := t.modCore core fun k => k.setTile m.tile z
      (m.peOp = 2 → (q.pair = none ∨ q.pair = pair) →
        (m.snap = [] → pastSpad (stepBytes (m.reg 16) m.wa (m.reg 17) m.wb m.pos 1) = none) → s.arg.t = 0 →
          let r := m.mmaTile m.pos (if m.snap = [] then s.mmaOperands m m.pos else m.snap) q
          let z := if m.snap = [] then s.mmaTouch m m.pos else s
          let t := more (flags (put z r.1) 3 21 r.2) fun k => { k with pos := m.pos + 1, snap := m.snap.drop 4 }
          exec .peMmaStep s = .next (if m.pos + 1 = m.ns then fin t else t))
        ∧ (m.peOp = 2 → s.arg.t = 1 →
          let st := m.pos + m.snap.length / 4
          st < m.ns → pastSpad (stepBytes (m.reg 16) m.wa (m.reg 17) m.wb st 1) = none →
            exec .peMmaStep s = .next (more (s.mmaTouch m st) fun k =>
              { k with snap := m.snap ++ s.mmaOperands m st, locks := if st + 1 = m.ns then [] else m.locks }))
        ∧ (m.peOp = 0 → s.arg.t = 0 → exec .peTileStep s = .next (fin (put s {})))
        ∧ (m.peOp = 1 → s.arg.t = 1 → m.snap = [] → ∀ l t, State.readC c m (cfmtCtag (m.reg 19)) 256 0 s = .ok l t →
          exec .peTileStep s = .next (more (more t fun k => { k with snap := l }) fun k => { k with locks := [] }))
        ∧ (m.peOp = 1 → s.arg.t = 0 → ∀ l t,
          (m.snap = [] ∧ State.readC c m (cfmtCtag (m.reg 19)) 256 0 s = .ok l t) ∨ (m.snap = l ∧ l ≠ [] ∧ t = s) →
          let es := l.map fun x => enterElem m.tagA m.tagB (decodeTag (cfmtCtag (m.reg 19)) x)
          exec .peTileStep s = .next (fin (flags
            (put t { pair := pair, elems := Vector.ofFn fun i => (es.getD i.val ({}, 0)).1 }) 3 21
            (es.foldl (fun f p => f ||| p.2) 0))))
        ∧ (m.peOp = 3 →
          let es := (List.range 256).map (m.storeElem q)
          let new := (es.foldl (fun (f : BitVec 5) p => f ||| p.2) 0).toNat :: es.map Prod.fst
          let kept := if m.snap = [] then new else m.snap
          (s.arg.t = 1 → m.snap = [] → exec .peTileStep s = .next (more s fun k => { k with snap := new }))
          ∧ (s.arg.t = 0 → ∀ t, State.writeD c m (cfmtDtag (m.reg 19)) (kept.drop 1) 0 s = .ok () t →
            exec .peTileStep s = .next (fin (flags t 3 21 (BitVec.ofNat 5 (kept.headD 0)))))))
      ∧ (m.eng = 4 → s.streamReady m = true →
        let b := m.boundary
        let n := { m with snap := s.ceBefore c m }
        let z := more s fun k => { k with snap := n.snap }
        let form (t : State) (k : Nat) : Host.Outcome State Fault Refusal :=
          let need := (fld ((t.getSlot m.slot).ereg 4 16) 20 20 : BitVec 20).toNat
          let f : Dword := BitVec.ofNat 64 (need * 2 ^ 20 + k * 2 ^ 16 + m.ceStep)
          .next ((t.modSlot m.slot fun q => q.setEreg 4 16 f).post .engineFault { c := m.id, trap :=
            { cause := 19, tval := BitVec.ofNat 64 m.ceStep, txval := f, eng := 5 } })
        (m.cePlen ≤ m.ceStep → exec .chainStep s = form z 7)
          ∧ (m.ceStep < m.cePlen → ∀ (w : Dword) u,
            (m.data = [] ∧ ∃ x,
                State.readBefore c n (fun t => t.engRead c (((m.reg 4).toNat + 2 * m.ceStep) * 8 : Nat) 16) z = .ok x u
                ∧ w = BitVec.ofNat 64 x)
              ∨ ((∃ l, m.data = w :: l) ∧ u = z) →
            let op := w.toNat / 2 ^ 12 % 16
            let k := w.toNat / 2 ^ 6 % 64
            let sel := w.toNat % 64
            let t1 := more u fun q => { q with data := w :: m.data.drop 1 }
            (7 ≤ op → exec .chainStep s = form t1 1)
              ∧ (w.toNat % 2 ^ 16 = 0 → exec .chainStep s = .next (fin (t1.cePctl n 0 0)))
              ∧ (3 ≤ op → op < 7 → k = 0 → (if op = 6 then sel < 8 else sel = 0) →
                let g : Stitch := ⟨0, 0, 0, 0⟩
                let b' := b.after op g
                m.chainReason op sel b b' = none →
                ∀ t2 j, State.chainTiles c n op sel b b' g (tileCount op b b' g - m.ceSub) m.ceSub t1 = (t2, j, none) →
                  exec .chainStep s = .next (t2.ceCommit n { b' with h := if op = 4 then b.h else !b.h } (m.ceStep + 1)))
              ∧ ((op = 1 ∨ op = 2) → sel = 0 → 16 * k + 16 ≤ (m.reg 7).toNat →
                ∀ (a e : Dword) u2,
                (m.data.length < 3 ∧ ∃ v,
                    State.readBefore c n (fun t => t.engRead c (((m.reg 6).toNat + 16 * k) * 8 : Nat) 128) t1 = .ok v u2
                    ∧ a = BitVec.ofNat 64 v ∧ e = BitVec.ofNat 64 (v / 2 ^ 64))
                  ∨ ((∃ v l, m.data = v :: a :: e :: l) ∧ u2 = t1) →
                let t2 := more u2 fun q => { q with data := [w, a, e] }
                let g := m.stitch a e
                let b' := b.after op g
                m.outside e g = false → m.badDims op b e g = false → m.chainReason op sel b b' = none →
                ∀ t3 j, State.chainTiles c n op sel b b' g (tileCount op b b' g - m.ceSub) m.ceSub t2 = (t3, j, none) →
                  exec .chainStep s = .next (t3.ceCommit n { b' with h := !b.h } (m.ceStep + 1)))))
      ∧ (m.eng = 6 → (s.bvHead (dieOf m.slot)).map Cmd.id = some m.id →
        let i := m.bvItem
        (m.bvPhase = 0 → i < m.bvN →
          ∀ l t1 t2, (m.snap.length = i ∧ (i = 0 → s.bvMeets c m = false) ∧
                ∃ v, s.engRead c (((m.reg 4).toNat + 32 * i) * 8 : Nat) 256 = .ok v t1 ∧ l = m.snap ++ [v])
              ∨ (i = 0 ∧ m.snap = [] ∧ s.bvMeets c m = true ∧ State.readBoxes c m m.bvN 0 s = .ok l t1)
              ∨ (m.snap.length = m.bvN ∧ l = m.snap ∧ t1 = s) →
            t1.scribble c m (64 * i) 64 = .ok () t2 →
              let t := more t2 fun k => { k with snap := l }
              let t := if l.length = m.bvN then t.bvRelease m false else t
              exec .buildItem s = .next (if i + 1 = m.bvN then t.bvAt m 1 0 else t.bvAt m 0 (i + 1)))
          ∧ ((m.bvPhase = 1 ∨ m.bvPhase = 2) → ∀ t, s.scribble c m 0 (64 * m.bvN) = .ok () t →
            exec .buildItem s
              = .next ((if m.bvPhase = 2 && m.snap.length = m.bvN then t.bvRelease m true else t).bvAt m (m.bvPhase + 1) 0))
          ∧ (m.bvPhase = 3 → m.snap.length = m.bvN →
            let nodes := buildNodes (m.snap.map boxOf) m.bvR
            ∀ n, nodes[i]? = some n → ∀ t1 t2,
              State.engPutBytes c (n.bytes fun k => Config.buildByte m.snap m.bvR (128 * i + k))
                (m.reg 6 + BitVec.ofNat 64 (128 * i)) s = .ok () t1 →
              State.engPutBytes c n.refs (m.reg 7 + BitVec.ofNat 64 (4 * n.primBase)) t1 = .ok () t2 →
                exec .buildItem s = .next (if nodes.length ≤ i + 1 then t2.bvDone m (m.snap.map boxOf) nodes.length
                  else (more t2 fun k => { k with snap := m.snap }).bvAt m 3 (i + 1))))

/-- BINNER_RECORD performs the command at the head of the binner's queue: a state block replaces the current one, the
next record goes into the open batch or is dropped, a flush or an end closes the open batch; where the rules flush the
open batch first and a batch still replays, a state, flush or end waits. TILE_REPLAY delivers the next tile of the
closed batch. RESOLVER_TILE_START takes a tile slot and resolves the opaque primitives in order. VISIBILITY_FINAL and
TRANSLUCENT_TASK_EMIT put the tile's tasks into their queues. COMMIT_PERFORM reads the colours that have become
readable, then writes the pixels of a commit whose turn has come, and TILE_SLOT_RELEASE releases a tile whose commits
have all been performed. What the rules leave to a reading here is the model's (logs 45, 46). Rests on R316, R318,
R320, R321, R322, R323, R324, R325, R327, R328, R356. -/
def Obligations.GraphicsStepsResolveAndCommit : Prop :=
  ∀ (s : State),
    let d := s.arg.die
    let g := (s.die d).gfx
    let tile (t : State) (v : TileRun) : State := t.setTileRun v
    (∀ m, s.cmd s.arg.c = some m → m.eng = 5 → m.finished = false →
      let more (t : State) (f : Cmd → Cmd) : State := { t with cmds := t.cmds.map fun k => if k.id = m.id then f k else k }
      let fin (t : State) : State := more t fun k => { k with finished := true, locks := [] }
      ((s.binnerQueue (dieOf m.slot)).head?.map Cmd.id = some m.id →
        let dm := dieOf m.slot
        let gm := (s.die dm).gfx
        (m.gxForm = 0 → exec .binnerRecord s = .next (match gm.newState (s.gxBlock m) with
          | some x => fin (s.modGfx dm fun _ => x)
          | none => s))
        ∧ (m.gxForm = 2 → exec .binnerRecord s = .next (if gm.canClose then fin (s.modGfx dm Gfx.close) else s))
        ∧ (m.gxForm = 3 → exec .binnerRecord s = .next (if gm.canClose then
            more (s.modGfx dm Gfx.close) fun k => { k with pos := 1, snap := gm.close.closedBatches } else s))
        ∧ (m.gxForm = 1 → s.outOfTurn (s.ctxCmd m) = false →
        ∀ v t, s.engRead (s.ctxCmd m) (((m.reg 5).toNat + 64 * m.pos) * 8 : Nat) 512 = .ok v t →
        ∀ x, (t.die (dieOf m.slot)).gfx.record m (Vector.ofFn fun i => BitVec.ofNat 64 (v / 2 ^ (64 * i.val))) = some x →
          let t := more (t.modGfx (dieOf m.slot) fun _ => x) fun k => { k with pos := m.pos + 1 }
          exec .binnerRecord s = .next (if m.pos + 1 = (fld (m.reg 6) 0 32 : BitVec 32).toNat then fin t else t)))
      ∧ (m.gxForm = 4 → s.outOfTurn (s.ctxCmd m) = false →
        ∀ tr k, s.commitTask (dieOf m.slot) m.a m.b = some (tr, k) →
        (m.data.length < m.colours → exec .commitPerform s = .next ((s.readColours m).focus s.slotNo)) ∧
        (m.colours ≤ m.data.length → tr.commitDue k = true →
        let v := s.seenSlot (dieOf m.slot) tr
        ∀ t, State.commitPixels (v.2.ctxCmd m) m v.1 k ((List.range 64).filter fun i => k.mask.getLsbD i) v.2
            = .ok () t →
          exec .commitPerform s = .next (fin (t.setTask (dieOf m.slot) tr k fun j => { j with performed := true })))))
      ∧ (∀ b q rest, g.replay = some b → g.pending = q :: rest → (∀ u ∈ g.tiles, u.batch = b.no → u.toEmit = []) →
        ∀ rate t, s.tileRate d b.st q.1 q.2 = .ok rate t →
          let ps := b.primsOf q
          let run : TileRun :=
            { batch := b.no, st := b.st, tx := q.1, ty := q.2, prims := ps, slots := b.slots, off := b.off, rate := rate
              toEmit := ((ps.filter Prim.trans).map fun p => (p, p.tri.mask b.st q.1 q.2)).filter fun p => p.2 ≠ 0 }
          exec .tileReplay s
            = .next (t.modGfx d fun x => { x with pending := rest, tiles := x.tiles ++ [run] }.settleReplay))
      ∧ (∀ tr, s.tileRun = some tr →
        (∀ k, g.freeTileSlot tr = some k → g.canStart tr = true →
          ∀ dep t, State.readDepth d tr 8 0 s = .ok dep t →
            let r := tr.resolve (List.replicate 64 0xFFFFFFFF) dep
            exec .resolverTileStart s
              = .next (tile { t with mem := t.mem.write (tileSlotKey d tr k) 512 (slotWords r.1 r.2) }
                { tr with slot := some k, ids := r.1, depth := r.2 }))
        ∧ (tr.slot ≠ none → tr.final = false →
          let v := s.seenSlot d tr
          let e := State.emitTasks d false (tr.tasks ++ v.1.opaqueTasks) v.2
          exec .visibilityFinal s = .next (tile e.2 { tr with final := true, tasks := e.1 }))
        ∧ (∀ p mask rest, tr.transWaits = false → tr.toEmit = (p, mask) :: rest →
          g.entriesUsed (tileCluster (tr.tx, tr.ty)) < 256 →
            let e := s.emitTask d (tr.task p ((tr.tasks.filter ShadeTask.trans).length + 1) mask)
            exec .translucentTaskEmit s
              = .next ((tile e.2 { tr with
                  tasks := tr.tasks ++ [e.1]
                  toEmit := if e.1.emitted then rest else tr.toEmit }).modGfx d Gfx.settleReplay))
        ∧ (tr.drained = true →
          let v := s.seenSlot d tr
          ∀ t, (if tr.st.dwrite then State.writeDepth d v.1 8 0 v.2 else .ok () v.2) = .ok () t →
            exec .tileSlotRelease s = .next (t.modGfx d fun x =>
              { x with tiles := x.tiles.filter fun u => !(u.batch = tr.batch && u.tx = tr.tx && u.ty = tr.ty) })))

/-- The arithmetic forms write one of sixteen registers, m0 staying 0; mc.b moves the program counter; mc.ldb and
mc.stb access the buffer, mc.rd and mc.wr copy between it and memory within their ranges, mc.elem forms an element's
bit address, mc.end ends the invocation. A count or offset out of range, a read outside the source and a write outside
the write range give MCFAULT with the reason and end the invocation. The signs of the offsets and the order of the
reasons are the model's readings (log 41). Rests on R280, R345, R346, R347. -/
def Obligations.MemoryCoreInstructions : Prop :=
  ∀ (s : State) (r : McRun) (l : List McRun), s.mcs = r :: l → ∀ (a b c k : BitVec 4) (i : BitVec 14) (n : BitVec 6),
    let x := r.get b
    let y := r.get c
    let set (t : State) (v : McRun) : State := { t with mcs := v :: l }
    let put (v : Dword) : Host.Outcome State Fault Refusal :=
      .next (set s (if a = 0 then r else { r with m := r.m.set a.toNat v a.isLt }))
    let bad (reason : Nat) : Host.Outcome State Fault Refusal :=
      .next ({ s with mcs := l }.post .engineFault { c := r.cmd.id, trap :=
        { cause := 21, txval := BitVec.ofNat 64 (reason * 2 ^ 56 + r.j % 2 ^ 32 * 2 ^ 16 + (r.pc % 1024).toNat)
          eng := r.cmd.eng.setWidth 4 + 1 } })
    let off := (x + i.setWidth 64).toNat
    let ctx := s.ctxCmd r.cmd
    let count := y.toNat
    exec (.mcAdd a b c) s = put (x + y) ∧ exec (.mcSub a b c) s = put (x - y) ∧ exec (.mcAnd a b c) s = put (x &&& y)
      ∧ exec (.mcOr a b c) s = put (x ||| y) ∧ exec (.mcXor a b c) s = put (x ^^^ y)
      ∧ exec (.mcShl a b c) s = put (x <<< (y.toNat % 64)) ∧ exec (.mcShr a b c) s = put (x >>> (y.toNat % 64))
      ∧ exec (.mcMul a b c) s = put (x * y) ∧ exec (.mcAddi a b i) s = put (x + i.signExtend 64)
      ∧ exec (.mcShli a b n) s = put (x <<< n.toNat)
      ∧ exec (.mcB k b c i) s = .next (if mcCond k x y then set s { r with npc := r.pc + i.toInt } else s)
      ∧ (off % 8 = 0 → off ≤ 2040 → exec (.mcLdb a b i) s = put (BitVec.ofNat 64 (Memory.read r.buf off 8))
        ∧ exec (.mcStb a b i) s = .next (set s { r with buf := Memory.write r.buf off 8 (r.get a).toNat }))
      ∧ ((off % 8 ≠ 0 ∨ 2040 < off) → exec (.mcLdb a b i) s = bad 3 ∧ exec (.mcStb a b i) s = bad 3)
      ∧ (1 ≤ count → count ≤ 2048 → (r.get a).toNat + count ≤ 2048 →
        (r.lo ≤ x.toNat → x.toNat + count ≤ r.hi → ∀ v t, s.engBytes ctx x count = .ok v t →
          exec (.mcRd a b c) s = .next (set t { r with buf := Memory.write r.buf (r.get a).toNat count v }))
        ∧ ((r.cmd.reg 9).toNat ≤ x.toNat → x.toNat + count ≤ (r.cmd.reg 9).toNat + (r.cmd.reg 10).toNat →
          s.deliverTurn r.cmd = true →
          ∀ t, State.engPutBytes ctx (Memory.readList r.buf (r.get a).toNat count) x s = .ok () t →
            exec (.mcWr a b c) s = .next (t.deliverFor r.cmd count))
        ∧ (x.toNat < r.lo ∨ r.hi < x.toNat + count → exec (.mcRd a b c) s = bad 4)
        ∧ (x.toNat < (r.cmd.reg 9).toNat ∨ (r.cmd.reg 9).toNat + (r.cmd.reg 10).toNat < x.toNat + count →
          exec (.mcWr a b c) s = bad 4))
      ∧ ((count = 0 ∨ 2048 < count ∨ 2048 < (r.get a).toNat + count) →
        exec (.mcRd a b c) s = bad 3 ∧ exec (.mcWr a b c) s = bad 3)
      ∧ (∀ e, s.shapeOf (clusOfCore (coreOf r.cmd.slot)) x = some e →
        exec (.mcElem a b c) s = if count < shapeCount e.image
          then put (BitVec.ofInt 64 (shapeBit e.image (unflatten (shapeExts e.image) count))) else bad 5)
      ∧ (s.shapeOf (clusOfCore (coreOf r.cmd.slot)) x = none → exec (.mcElem a b c) s = bad 5)
      ∧ exec .mcEnd s = .next (match { s with mcs := l }.cmd r.cmd.id with
        | none => { s with mcs := l }
        | some m => if partCount (r.lo, r.hi) ≤ m.pos && !l.any (fun q => q.cmd.id = m.id)
          then { s with mcs := l }.finishCmd m.id else { s with mcs := l })

/-- rbox and rtri, whose operands pass the checks and whose node or triangle blocks lie in uncompressed local memory,
write the results of the test (on infinite inputs, free words decide: log 21; the mask, exact zeros and an NCHILD
above 8: log 49) to every active element and change no other register. tex.smp, tex.grad and tex.fetch read the
binding once, or go on with the one that a wait left held (log 90), and with a valid one perform their active elements
in order and complete the result groups (log 48: what non-finite coordinates give). vmm writes 64 elements, each
rounded once (the sign of a zero, and NV: log 49). Rests on R330, R335, R336, R358, R359, R360, R361, R362. -/
def Obligations.ShaderFormsAndSmallMatrices : Prop :=
  ∀ (s : State) (d a b m : RegNo),
    let g := s.gN
    (∀ p ∈ ([(.texSmp d a b m, 0), (.texGrad d a b m, 1), (.texFetch d a b m, 2)] : List (Instr × Nat)),
      let w := s.ew
      let gc := g * 32 / w
      let n := (texTags p.2).length
      s.namesLink [b] = false → s.slot.vill = false → (w = 8 ∨ w = 16 ∨ w = 32) → 1 ≤ gc → gc ≤ 8 →
      runOk a gc n = true → runOk d g 4 = true → s.maskOk m = true → overlaps d (4 * g) a (n * gc) = false →
      (∀ k < n, s.vtag (runReg a gc k) = (texTags p.2).getD k 0 ∧ s.readableAs (runReg a gc k) gc 32 s.vlN = true) →
      (m = 0 ∨ s.readable m s.vlN = true) → (∀ k < 4, s.writable (runReg d g k) s.vlN = true) →
      ∀ (v : Nat) (t1 : State), ((∃ k, s.slot.block = some k ∧ v = k.toNat ∧ t1 = s)
          ∨ (s.slot.block = none ∧ ∃ q, s.loadWide s.ctx (s.getX b) 16 16 48 = .ok v q
            ∧ t1 = q.upd fun t => { t with block := some (BitVec.ofNat 1024 v) })) →
        let tb := TexBinding.ofNat v
        tb.ok = true → tagMem tb.out = w →
          let dst := (List.range 4).map fun k => (runReg d g k, tb.out)
          let prog (k : Option Nat) (q : State) : State := dst.foldl (fun q e => q.setProg e.1 g t1.ew k) q
          ∀ t2, (dst.foldl (fun q e => q.setTag e.1 g e.2) t1).eachElem (fun i q => prog (some i) q)
              (fun i q => (q.texElem q.ctx tb p.2 ((List.range n).map fun k => q.elem (runReg a gc k) 32 i)).bind fun l q =>
                .ok () ((dst.zip l).foldl (fun q e => q.setElem e.1.1 t1.ew i e.2) q))
              ((t1.actives m).filter fun i => t1.startElem ≤ i) = .ok () t2 →
            exec p.1 s = .next (prog none t2))
      ∧ (s.slot.vill = false → s.ew = 32 → 0 < s.lanes → s.lanes ≤ 8 → s.vlN ≤ s.vlmax → s.slot.restart = none →
        s.maskOk m = true → runOk a g 8 = true → runOk b (2 * g) 1 = true → overlaps a (8 * g) b (2 * g) = false →
        (∀ k < 8, s.vtag (runReg a g k) = 1 ∧ s.readable (runReg a g k) s.vlN = true) →
        s.readableAs b (2 * g) 64 s.vlN = true →
        (m = 0 ∨ s.readable m s.vlN = true) →
        ∀ p ∈ ([(.rbox d a b m, 2, 64, 2), (.rtri d a b m, 4, 4, 9)] : List (Instr × Nat × Nat × Nat)),
          let n := p.2.1
          let z := p.2.2.1
          let c := p.2.2.2
          let va (i : Nat) : Dword := BitVec.ofNat 64 (s.elem b 64 i)
          runOk d g n = true → overlaps d (n * g) a (8 * g) = false → overlaps d (n * g) b (2 * g) = false →
          (∀ k < n, s.writable (runReg d g k) s.vlN = true) →
          ∀ key : Nat → Nat, (∀ i ∈ s.actives m, (va i).toNat % (if n = 2 then 128 else 4) = 0
              ∧ locOf s.coreNo (va i) (z * c) ≠ .bad
              ∧ ∀ j < c, s.RawAt (va i + BitVec.ofNat 64 (z * j)) z (key i + z * j) false) →
            ∃ t, exec p.1 s = .next t ∧ t.mem = s.mem ∧ t.slot.x = s.slot.x ∧ t.slot.fflags = s.slot.fflags
              ∧ (∀ r : RegNo, (r.toNat < d.toNat ∨ d.toNat + n * g ≤ r.toNat) → t.slot.getV r = s.slot.getV r)
              ∧ ∀ i ∈ s.actives m, ∃ fr : Nat → BitVec 32, ∀ k < n, t.elem (runReg d g k) 32 i
                = (let v := s.mem.read (key i) (z * c)
                   let f (q : Nat) : XV := decodeTag 1 (v / 2 ^ (32 * q) % 2 ^ 32)
                   (if n = 2 then (s.rayOf a g i).node v fr
                    else (s.rayOf a g i).tri [f 0, f 1, f 2] [f 3, f 4, f 5] [f 6, f 7, f 8] fr).getD k 0) % 2 ^ 32)
      ∧ (∀ (k : BitVec 3) (md : RMode),
        let t1 := s.vtag a
        let t2 := s.vtag b
        let legal : List Nat := [22, 23, 24, 25, 27]
        s.slot.vill = false → s.ew = 8 → g = 1 → s.lanes = 8 → d ≠ a → d ≠ b → a ≠ b →
        t1 ∈ legal → t2 ∈ legal → s.vtag d = 1 →
        s.rmode 7 = some md → s.readable a 256 = true → s.readable b 256 = true → s.readable d 64 = true →
        s.writable d 64 = true →
          let scale (q : Nat) (r : Nat) : Nat := (fld (s.slot.ereg 3 (4 + q)) (8 * r) 8 : BitVec 8).toNat
          let out := (List.range 64).map fun i =>
            let y := vmmExact (decodeTag 1 (elemAt (s.group d 1) 32 i)) (scale k.toNat (i / 8)) (scale (k.toNat + 1) (i % 8))
              ((List.range 32).map fun j => (vmmValue t1 (elemAt (s.group a 1) 8 (32 * (i / 8) + j)),
                vmmValue t2 (elemAt (s.group b 1) 8 (32 * (i % 8) + j))))
            let q := roundTo 1 md false y.val (s.rword i)
            (q.code, y.flags ||| q.flags)
          exec (.vmm d a b k) s = .next (((s.putGroup d 1
            (out.zipIdx.foldl (fun v p => v + p.1.1 * 2 ^ (32 * p.2)) 0) 1).orFflags
              (out.foldl (fun f p => f ||| p.2) 0)).bumpSeed md))

/-- crr reads a register. crw, crs and crc that may write it return the old value and store the new one by the
register's rules, and trap ILLEGAL where it may not be written; crs and crc of s0 only read. A write of a command
register performs the command after a release and returns its result, a TLBINV when every access that may have used a
translation is performed. A write of VLMAXP, as an instruction or as VLMAXP_WRITE, waits while a vector instruction of
the core is queued, and sets the active lanes. Once the word after it is fetched, a prefix in firmware mode runs that
word, a target form, with the modifiers; elsewhere, and before any other word, it traps ILLEGAL. That rd is judged as
a link under the old LM is the model's choice (log 82). Rests on R12, R13, R17, R19, R20, R66, R86, R112, R113, R115,
R376, R381. -/
def Obligations.ControlRegistersAndPrefix : Prop :=
  ∀ (s : State) (d a : RegNo) (n : BitVec 12),
    let k := n.toNat
    let x := s.src [] a
    let old := s.crRead k
    let ill (t : State) (w : BitVec 32) : Host.Outcome State Fault Refusal :=
      .next (t.takeTrap { cause := 1, tval := w.setWidth 64 })
    let cmd := 0x70 ≤ k ∧ k ≤ 0x73
    (s.Gives (.crr d n) [] d old ∧ s.Gives (.crs d 0 n) [] d old ∧ s.Gives (.crc d 0 n) [] d old)
      ∧ (s.crRead 0x00 = BitVec.ofNat 64 (s.slot.mode.toNat * 16 + b2n s.slot.loop * 64 + b2n s.slot.lm * 128)
        ∧ s.crRead 0x20 = s.slot.fflags.setWidth 64 ∧ s.crRead 0x21 = s.slot.frm.setWidth 64
        ∧ s.crRead 0x22 = s.slot.srseed ∧ s.crRead 0x23 = s.slot.flags.setWidth 64
        ∧ s.crRead 0x40 = s.slot.epc.setWidth 64 ∧ s.crRead 0x41 = s.slot.tcause ∧ s.crRead 0x42 = s.slot.tval
        ∧ s.crRead 0x43 = s.slot.tvec ∧ s.crRead 0x44 = s.slot.txval ∧ s.crRead 0x70 = 0)
      ∧ (¬cmd → s.slot.crLocked k = false → s.LinksOk [a] (some d) →
        ∀ q ∈ ([(.crw d a n, x)] ++ (if a = 0 then [] else [(.crs d a n, old ||| x), (.crc d a n, old &&& ~~~x)])
            : List (Instr × Dword)),
          (s.lanesWait k q.2 = true → exec q.1 s = .next s.holdOn)
          ∧ (s.lanesWait k q.2 = false → exec q.1 s = (match (s.retire [a] d old).crPut k q.2 with
            | some t => .next t
            | none => ill s s.slot.ir)))
      ∧ ((∀ v, s.crPut 0x20 v = some { s with slot := { s.slot with fflags := fld v 0 5 } }
          ∧ s.crPut 0x21 v = some { s with slot := { s.slot with frm := fld v 0 3 } }
          ∧ s.crPut 0x22 v = some { s with slot := { s.slot with srseed := v } }
          ∧ s.crPut 0x23 v = some { s with slot := { s.slot with flags := fld v 0 3 } }
          ∧ s.crPut 0x00 v = some { s with slot := { s.slot with lm := v.getLsbD 7 } }
          ∧ s.crPut 0x40 v = some { s with slot := { s.slot with epc := fld v 0 56 } }
          ∧ s.crPut 0x42 v = some { s with slot := { s.slot with tval := v } }))
      ∧ (s.slot.crLocked k = true → exec (.crw d a n) s = ill s s.slot.ir)
      ∧ (s.slot.mode = 0 → (k = 3 ∨ k = 0x31 ∨ (0x40 ≤ k ∧ k ≤ 0x44) ∨ cmd) → exec (.crw d a n) s = ill s s.slot.ir)
      ∧ (cmd → a ≠ 0 → exec (.crs d a n) s = ill s s.slot.ir ∧ exec (.crc d a n) s = ill s s.slot.ir)
      ∧ (cmd → s.slot.mode ≠ 0 → s.LinksOk [a] (some d) → s.outstanding 0xFFFF 5 = false →
        let refused := (fld x 56 8 : BitVec 8) ≠ 0 ∨ (fld x 1 11 : BitVec 11) ≠ 0
        (k = 0x73 → s.inFlight = true → ¬refused → exec (.crw d a n) s = .next s.holdOn)
        ∧ ((k = 0x73 → s.inFlight = false ∨ refused) →
          exec (.crw d a n) s = .next (((s.popLinks [a]).command k x).2.putX d ((s.popLinks [a]).command k x).1)))
      ∧ ((s.arg.t = 1 ∨ s.arg.t = 2 ∨ s.arg.t = 4 ∨ s.arg.t = 8) →
        exec .vlmaxpWrite s
            = .next (if s.lanesHeld s.arg.core s.arg.t then s.post .vlmaxpWrite s.arg else s.setLanes s.arg.core s.arg.t)
          ∧ ((s.setLanes s.arg.core s.arg.t).getCore s.arg.core).lanes.toNat = s.arg.t)
      ∧ (∀ (p0 p1 p2 p3 p4 p5 : Bool) (c : BitVec 7),
        (∀ w t, t.slot.mode ≠ 2 → s.pairWord = .ok w t → exec (.pfx p0 p1 p2 p3 p4 p5 c) s = ill t t.slot.ir)
          ∧ (∀ w t, t.slot.mode = 2 → s.pairWord = .ok w t →
            let z : State := { t with slot := { t.slot with pfx := s.slot.ir, ir := w, npc := t.slot.pc + 8 } }
            (∀ mo e x y, decode w = some (.add e x y) → z.slot.mods = some mo → z.LinksOk [x, y] (some e) →
              let sum := modInt mo.absa mo.nega (z.src [] x).toInt + modInt mo.absb mo.negb (z.src [x] y).toInt
              exec (.pfx p0 p1 p2 p3 p4 p5 c) s
                = .next ((z.retire [x, y] e (BitVec.ofNat 64 (mo.intResult true 64 sum))).upd
                  fun q => q.endPair s.slot.ir w))
            ∧ (∀ i u, decode w = some i → prefixTarget i z = some (.next u) →
              exec (.pfx p0 p1 p2 p3 p4 p5 c) s = .next (u.upd fun q => q.endPair s.slot.ir w))
            ∧ ((decode w).bind (fun i => prefixTarget i z) = none →
              exec (.pfx p0 p1 p2 p3 p4 p5 c) s = ill t w))
          ∧ (∀ w, s.slot.loop = true → s.slot.body[s.slot.bpos.toNat + 1]? = some w → s.pairWord = .ok w s)
          ∧ (s.slot.loop = false → s.pairWord = s.fetchAt (s.slot.pc + 4)))

/-- The link words that the slot holds are given up first. A trap whose row says local, with TVEC.EN 1 and BUSY 0,
writes EPC, TCAUSE, TVAL and TXVAL, clears LOOP and goes to TVEC.ADDR; any other makes the slot FAULTED with a resume
point, a new SEQ and a fault record. Neither changes any other state. The restart element and the counted arrival of
the instruction at the resume point go with the trap. sys and brk trap after themselves, once no fence of the slot
stands; tret goes back to EPC with LOOP, BPOS, the restart element and the arrival of TCAUSE and clears BUSY. A trap
that becomes due in a running slot is taken in the same way. Model's choice: where TXVAL holds a local trap's own
detail, the counted arrival has no place (log 52). Rests on R191, R203, R373, R375, R376, R377, R378, R379, R393. -/
def Obligations.TrapsAreTakenAndReturnedFrom : Prop :=
  ∀ (s : State) (i : TrapInfo),
    let u := s.releaseLinks
    let t := u.slot
    let j := t.carried i
    let pc' : BitVec 56 := if i.after then t.pc + 4 else t.pc
    (u.slot = { s.slot with linked := false } ∧ u.others = s.others ∧ u.mem = s.mem ∧ (s.slot.linked = false → u = s)
        ∧ ∀ c, u.getCore c = { s.getCore c with links := (u.getCore c).links })
      ∧ ((i.after = true → j = i) ∧ (i.after = false → j.cause = i.cause ∧ j.tval = i.tval ∧ j.eng = i.eng
          ∧ j.after = false ∧ j.elem = (if i.elem.isSome then i.elem else t.restart)
          ∧ (t.arrTok = none → j = { i with elem := j.elem })
          ∧ (∀ tok, t.arrTok = some tok → i.txval = 0 → j.arr = true ∧ j.token = tok ∧ j.txval = tok.setWidth 64)))
      ∧ (t.deliversLocally i = true ↔
        (i.cause.toNat ∈ [1, 2, 3, 4, 5, 6, 7, 8, 12, 13, 15, 16, 17, 18, 19, 20, 21] ∧ t.tvec.getLsbD 0 = true
          ∧ t.tcause.getLsbD 63 = false))
      ∧ (t.deliversLocally i = true →
        let q := s.takeTrap i
        q.slot.epc = pc' ∧ q.slot.tval = i.tval ∧ q.slot.txval = j.txval ∧ q.slot.loop = false ∧ q.slot.st = .running
          ∧ q.slot.pc.toNat = t.tvec.toNat % 2 ^ 56 / 4 * 4
          ∧ (fld q.slot.tcause 0 16 : BitVec 16) = i.cause ∧ (fld q.slot.tcause 28 4 : BitVec 4) = i.eng
          ∧ q.slot.tcause.getLsbD 63 = true ∧ q.slot.tcause.getLsbD 62 = t.loop ∧ q.slot.tcause.getLsbD 54 = j.arr
          ∧ q.slot.tcause.getLsbD 55 = j.elem.isSome ∧ (fld q.slot.tcause 32 16 : BitVec 16) = j.elem.getD 0
          ∧ q = { u with slot := { t with
              epc := q.slot.epc, tcause := q.slot.tcause, tval := q.slot.tval, txval := q.slot.txval, loop := false
              st := .running, park := .none, restart := none, arrTok := none, hold := false, block := none
              captured := none, woken := false, pc := q.slot.pc, npc := q.slot.pc } })
      ∧ (t.deliversLocally i = false →
        let q := s.takeTrap i
        q.slot.st = .faulted ∧ q.slot.seq = t.seq + 1 ∧ q.slot.resume.rpc = pc' ∧ q.slot.resume.loop = t.loop
          ∧ q.slot.resume.ev = j.elem.isSome ∧ q.slot.resume.elem = j.elem.getD 0 ∧ q.slot.resume.arr = j.arr
          ∧ (j.arr = true → q.slot.resume.token = j.token)
          ∧ (∃ r, q.slot.faultRec = some r ∧ r.key = i.cause.setWidth 64 ∧ r.arg2 = i.tval ∧ r.fp = j.txval
            ∧ r.arg1 = t.tcauseOf j ∧ r.arg3 = pc'.setWidth 64 ∧ r.arg0 = t.regionH ++ (t.seq + 1) ++ s.slotNo)
          ∧ q = { u with slot := { t with
              st := .faulted, park := .none, resume := q.slot.resume, restart := none, arrTok := none, hold := false
              block := none, captured := none, woken := false, seq := q.slot.seq
              faultRec := q.slot.faultRec, faultReg := t.regionH } })
      ∧ exec .sys s = .next (if s.slot.fences = []
          then s.takeTrap { cause := 7, tval := s.getX 4, txval := s.getX 5, after := true } else s.holdOn)
      ∧ exec .brk s = .next (if s.slot.fences = [] then s.takeTrap { cause := 8, after := true } else s.holdOn)
      ∧ (let t := s.slot
         (t.loop = false → t.tcause.getLsbD 63 = true → ∃ q, exec .tret s = .next { s with slot := q }
          ∧ q.pc = t.epc ∧ q.loop = t.tcause.getLsbD 62 ∧ q.st = .running ∧ q.tcause = t.tcause &&& 0x7FFFFFFFFFFFFFFF
          ∧ (t.tcause.getLsbD 62 = true → q.bpos = fld t.tcause 56 6)
          ∧ q.restart = (if t.tcause.getLsbD 55 then some (fld t.tcause 32 16) else none)
          ∧ q.arrTok = (if t.tcause.getLsbD 54 then some (fld t.txval 0 32) else none)
          ∧ q = { t with
              pc := t.epc, npc := t.epc, loop := q.loop, bpos := q.bpos, restart := q.restart, arrTok := q.arrTok
              hold := false, block := none, captured := none, woken := false, st := .running, park := .none
              tcause := q.tcause })
         ∧ ((t.loop = true ∨ t.tcause.getLsbD 63 = false) →
          exec .tret s = .next (s.takeTrap { cause := 1, tval := t.ir.setWidth 64 })))
      ∧ (let z := s.focus s.arg.n
         z.slot.st = .running →
          let y := (z.withdraw z.slotNo).upd fun t =>
            { t with park := .none, recd := none, launch := none, leaving := false }
          (z.slot.deliversLocally s.arg.trap = true → exec .localTrapEntry s = .next (y.takeTrap s.arg.trap))
            ∧ (z.slot.deliversLocally s.arg.trap = false → exec .faultDomainDelivery s = .next (y.takeTrap s.arg.trap)))

/-- FRES acts on a FAULTED slot with the fault's SEQ in the caller's tree: RETRY resumes at the resume point after an
acquire of DEVICE scope, REISSUE issues the stopped commands again first, KILL ends the task, EXTEND restarts the
cycle count. RCTL suspends, resumes or kills a region and its descendants, QSAVE writes a queue's image, TLBINV
removes the translations it names; as an event it waits while an access that may have used one is on its way. Each
refusal has its code, in the order of R381, and no effect. The events do the same. A waiting fault record is enqueued
to its fault domain, waits while that queue is full, or goes to the management core, which kills the tree. The record
waits until the slot's commands have completed or stopped (the model's choice, log 51) and its packets are
acknowledged. Rests on R379, R380, R381, R382, R387, R388, R389, R390. -/
def Obligations.CommandRegistersAndFaultRecords : Prop :=
  ∀ (s : State) (w : Dword),
    let n : SlotNo := fld w 0 16
    let t := s.getSlot n
    let bad (c : Nat) : Dword := BitVec.ofNat 64 (2 ^ 63 + c)
    let op := (fld w 32 4 : BitVec 4).toNat
    let rop := (fld w 32 2 : BitVec 2).toNat
    let h : BitVec 32 := fld w 0 32
    let z := s.arg.n
    let page (t : Slot) (va : Dword) : State := s.tlbKeep fun e => (tlbFind [e] (s.rootOf t) va).isNone
    ((fld w 36 28 : BitVec 28) = 0 → op < 4 →
        ((t.st ≠ .faulted ∨ t.seq ≠ fld w 16 16) → s.command 0x70 w = (bad 1, s))
        ∧ (t.st = .faulted → t.seq = fld w 16 16 →
          (s.sameTree t.regionH s.slot.regionH = false → s.command 0x70 w = (bad 3, s))
          ∧ (s.sameTree t.regionH s.slot.regionH = true → s.command 0x70 w = (0,
            if op = 0 then s.fresRetry n else if op = 1 then s.fresReissue n else if op = 2 then s.killTask n
            else s.fresExtend n))))
      ∧ (((fld w 36 28 : BitVec 28) ≠ 0 ∨ 4 ≤ op) → s.command 0x70 w = (bad 2, s))
      ∧ ((s.getSlot z).st = .faulted →
        exec .fresRetry s = .next (s.fresRetry z) ∧ exec .fresReissue s = .next ((s.reissue z).fresRetry z)
          ∧ exec .fresKill s = .next (s.killTask z)
          ∧ exec .fresExtend s = .next ((s.modSlot z fun t => { t with taskcyc := 0 }).fresRetry z)
          ∧ (let q := (s.fresRetry z).getSlot z
             let r := (s.getSlot z).resume
             q.pc = r.rpc ∧ q.loop = r.loop ∧ q.st = .running ∧ q.faultRec = none ∧ q.x = (s.getSlot z).x
               ∧ q.restart = (if r.ev then some r.elem else none) ∧ q.arrTok = (if r.arr then some r.token else none)
               ∧ s.mt ≤ ((s.fresRetry z).getCore (coreOf z)).clkts)
          ∧ (∀ m ∈ (s.reissue z).cmds, m.slot = z → m.stopped = false))
      ∧ ((fld w 34 30 : BitVec 30) = 0 → rop < 3 →
        ((s.region h).isNone = true → s.command 0x71 w = (bad 1, s))
          ∧ ((s.region h).isSome = true → s.sameTree h s.slot.regionH = false → s.command 0x71 w = (bad 3, s))
          ∧ ((s.region h).isSome = true → s.sameTree h s.slot.regionH = true →
            (rop = 0 → s.command 0x71 w = (0, s.setSuspended h false))
            ∧ (rop = 1 → s.command 0x71 w = (0, s.setSuspended h true))
            ∧ (rop = 2 → s.command 0x71 w
                = if (s.path s.slot.regionH).contains h then (bad 4, s) else (0, s.killRegion h))))
      ∧ (((fld w 34 30 : BitVec 30) ≠ 0 ∨ rop = 3) → s.command 0x71 w = (bad 2, s))
      ∧ ((s.region (BitVec.ofNat 32 s.arg.t)).isSome = true →
        exec .rctlResume s = .next (s.setSuspended (BitVec.ofNat 32 s.arg.t) false)
          ∧ exec .rctlSuspend s = .next (s.setSuspended (BitVec.ofNat 32 s.arg.t) true)
          ∧ exec .rctlKill s = .next (s.killRegion (BitVec.ofNat 32 s.arg.t)))
      ∧ (∀ v, (s.setSuspended h v).regions = s.regions.map fun r =>
          if (s.subtree h).contains r.handle then { r with suspended := v } else r)
      ∧ (∀ k, s.queue s.arg.q.toNat = some k → exec .qsave s = .next (s.saveQueue k))
      ∧ ((fld w 16 48 : BitVec 48) = 0 →
        (s.queue (fld w 0 16 : BitVec 16).toNat = none → s.command 0x72 w = (bad 1, s))
          ∧ ∀ k, s.queue (fld w 0 16 : BitVec 16).toNat = some k → s.command 0x72 w
            = if s.sameTree k.region s.slot.regionH then (BitVec.ofNat 64 k.entries.length, s.saveQueue k) else (bad 3, s))
      ∧ ((fld w 16 48 : BitVec 48) ≠ 0 → s.command 0x72 w = (bad 2, s))
      ∧ ((fld w 56 8 : BitVec 8) = 0 → (fld w 1 11 : BitVec 11) = 0 →
        s.command 0x73 w = (0, if w.getLsbD 0 then s.tlbKeep fun _ => false else page s.slot w))
      ∧ (((fld w 56 8 : BitVec 8) ≠ 0 ∨ (fld w 1 11 : BitVec 11) ≠ 0) → s.command 0x73 w = (bad 2, s))
      ∧ (exec .tlbinvAll s = .next (if s.inFlight then s.post .tlbinvAll s.arg else s.tlbKeep fun _ => false)
        ∧ (∀ c, ((s.tlbKeep fun _ => false).getCore c).tlb = [])
        ∧ exec .tlbinvPage s = .next (if s.inFlight then s.post .tlbinvPage s.arg else page (s.getSlot z) s.arg.va))
      ∧ (s.arg.wants = false → s.liveCmds z = false → (s.getSlot z).packets = 0 → ∀ r, (s.getSlot z).faultRec = some r →
        let done (t : State) : State := t.modSlot z fun t => { t with faultRec := none }
        (∀ k, s.faultQueue (s.getSlot z).faultReg = some k → k.waiters.contains (.slot z) = false →
          exec .faultRecordEnqueue s = .next (if k.room then done (s.enqueue k.num r)
            else s.modQueue k.num fun k => { k with waiters := k.waiters ++ [.slot z] }))
        ∧ (s.faultQueue (s.getSlot z).faultReg = none →
          exec .faultRecordEnqueue s = .next ((done s).reportKill (s.getSlot z).faultReg r)))

/-- DISPATCH_GRANT discards the RESUME entries whose team is gone, then gives the chosen entry to the slot of the
request, which becomes STARTING. PICK_UP of a well-formed record runs it: s3 to s7, PC, LM and MODE come from the
record and its region, every other scalar register is 0. TASK_LIMIT traps when TASKCYC has reached LIMIT. The governor
moves 8 slots of quota from the lowest-numbered blocked stage, or else starved one, with that margin to the
highest-numbered backlogged stage with room, and keeps their sum; the balancer moves 64 to 256 entries per command;
CLKTS_TICK adds 1. What counts as a downstream stage, and that dead entries are discarded at a grant, are the model's
readings (log 53). Rests on R158, R167, R172, R178, R179, R180, R183, R184, R223. -/
def Obligations.DispatchersGrantAndSlotsPickUp : Prop :=
  ∀ (s : State),
    let d := s.arg.die
    let z := s.focus s.arg.n
    let rich (k : Queue) : Prop := k.minslots.toNat + 8 ≤ k.quota
    let roomy (k : Queue) : Prop := k.maxslots = 0 ∨ k.quota + 8 ≤ k.maxslots.toNat
    (let s1 := s.dropDead d
     s1.dispatching d = true → (∀ n cs, s1.answerable d = some (n, cs) → ∃ p k e die, s1.choose d cs = some (p, k, e, die)
        ∧ (k, e) ∈ cs ∧ ∃ t, exec .dispatchGrant s = .next t ∧ t = (s1.setDie d die).grant d n p k e
        ∧ (e.team = false → e.resume = false → (t.getSlot n).st = .starting ∧ (t.getSlot n).tkey = e.key
          ∧ (t.getSlot n).recd = some { e with w1 := setFld e.w1 56 (BitVec.ofNat 3 p) }
          ∧ (∀ j, j ≠ n → t.getSlot j = s1.getSlot j)))
      ∧ (s1.answerable d = none → s.hasDead d = true → exec .dispatchGrant s = .next s1))
      ∧ (∀ r, z.slot.st = .starting → z.slot.recd = some r → (fld r.pc 0 2 : BitVec 2) = 0 → r.badAtPickUp = false →
        ∃ t, exec .pickUp s = .next t ∧ t.slotNo = s.arg.n ∧ t.slot.st = .running ∧ t.slot.pc = r.pc ∧ t.slot.lm = r.lm
          ∧ t.slot.mode = ((s.region r.region).elim 2 Region.mode) ∧ t.slot.tkey = z.slot.tkey ∧ t.slot.tinfo = z.slot.tinfo
          ∧ t.slot.team = z.slot.team ∧ t.slot.tasklim = z.slot.tasklim
          ∧ (∀ q : RegNo, t.getX q = if q = 3 then (if z.slot.inTeam then 0 else r.fp) else if q = 4 then r.arg0
            else if q = 5 then r.arg1 else if q = 6 then r.arg2 else if q = 7 then r.arg3 else 0)
          ∧ t.mem = s.mem)
      ∧ (z.slot.st = .running → z.slot.tasklim ≠ 0 → z.slot.tasklim.toNat ≤ z.slot.taskcyc.toNat →
        exec .taskLimit s = .next ((z.bump z.slot.regionH 0x50 1).dueTrap
          { cause := 14, tval := z.slot.tasklim.setWidth 64 }))
      ∧ (∃ t, exec .stageGovernorEvaluation s = .next t ∧ (t.die d).govAt = (s.die d).cycle ∧ t.mem = s.mem
          ∧ t.slot = s.slot ∧ t.queues = ((s.pipes d).foldl (fun q p => q.governPipe d p) s).queues
          ∧ ((s.queues.map Queue.num).Nodup → (t.queues.map Queue.quota).sum = (s.queues.map Queue.quota).sum))
      ∧ (∀ (p : BitVec 8) (a b : Queue), ∀ c ∈ [StageSt.blocked, .starved],
        let st (k : Queue) : Prop := k ∈ s.queues ∧ queueDie k.num = d ∧ k.pipe = p
        (s.queues.map Queue.num).Nodup → st a → st b → a.num ≠ b.num →
        (c = .starved → ∀ k, st k → s.stageState k = .blocked → ¬rich k) →
        s.stageState a = c → rich a → (∀ k, st k → s.stageState k = c → rich k → k ≠ a → a.stage.toNat < k.stage.toNat) →
        s.stageState b = .backlogged → roomy b →
        (∀ k, st k → s.stageState k = .backlogged → roomy k → k ≠ b → k.stage.toNat < b.stage.toNat) →
          (s.governPipe d p).queues = s.queues.map fun k =>
            { k with quota := if k.num = a.num then k.quota - 8 else if k.num = b.num then k.quota + 8 else k.quota })
      ∧ (exec .balancerCycle s
          = .next { s with migrations := s.migrations ++ (List.range 8).reverse.filterMap s.selectMove, balAt := s.cycle }
        ∧ ∀ p m, s.selectMove p = some m → 64 ≤ m.count ∧ m.count ≤ 256)
      ∧ (∀ m r k, s.migrations = m :: r → s.queue m.src.toNat = some k →
        exec .migrationCommand s = .next (State.moveEntries m.src
          (BitVec.ofNat 12 (m.dst.toNat * 512 + m.src.toNat % 512)) 0 (k.detach m.count)
          (({ s with migrations := r }.messageDie (queueDie m.src)).messageDie m.dst)))
      ∧ (64 ≤ (s.getCore s.arg.core).clkIdle →
        exec .clktsTick s = .next (s.modCore s.arg.core fun c => { c with clkts := c.clkts + 1, clkIdle := c.clkIdle - 64 }))

/-- Where the shared caches have room: HOME_READ extends the lease and lists the die as a sharer, and a copy that
serves the read changes no timestamp; HOME_UPGRADE makes the die the owner and ends every other copy; a LINE_FILL
brings a line into its home slice. SLICE_INVALIDATION and SLICE_EVICTION drop a copy and never change memory or
another line, an owner's copy giving its timestamps back; LINE_WRITEBACK takes a written, unpinned line out of its
home slice. DT_RISE_REPORT raises MT. PAGE_WALK leaves the translation in the TLB, and faults with ROOT 0. 32 failed
replays lose a seam; the die's slices, cells and queues are gone, and with no slot of it busy every line that it owned
is POISON. The model's choices: MT has taken in a rise before its report (log 14), a line's timestamps outlast its
eviction (log 60), a slice copy is its timestamps and state alone (log 70), and traffic waits at a seam from its first
failed replay until a flit crosses (log 92). Rests on R220, R281, R383, R399, R400, R403, R404, R421. -/
def Obligations.HomesAndSlicesKeepTheirLines : Prop :=
  ∀ (s : State),
    let d := s.arg.die
    let l := s.arg.line
    let hd := homeDie (l * 64)
    let h := s.home l
    let e := s.die d
    let others (t : State) : Prop := t.mem = s.mem ∧ t.slot = s.slot ∧ t.core = s.core ∧ ∀ k, k ≠ l → t.home k = s.home k
    (l < 2 ^ 34 → s.poisoned l = false → d ≠ hd → (∀ wr, s.hostHolds l wr = false) →
      (h.st ≠ .modified → (∀ e, s.cachedLines e < cacheLines) →
        (s.sliceOf d l = none →
          let rts := max h.rts (max (h.wts + 64) (s.arg.t + 64))
          ∃ t, exec .homeRead s = .next t ∧ others t ∧ (t.home l).rts = rts ∧ (t.home l).held = true
            ∧ (t.home l).wts = h.wts ∧ (t.home l).st = .shared ∧ (t.home l).shr = h.shr ||| (1#8 <<< d.toNat)
            ∧ t.sliceOf d l = some { die := d, line := l, owned := false, wts := h.wts, rts := rts })
        ∧ ((∀ c ∈ s.slices, c.line = l → c.owned = false) →
          ∃ t, exec .homeUpgrade s = .next t ∧ others t
            ∧ (t.home l).st = .modified ∧ (t.home l).own = d ∧ (t.home l).shr = 0
            ∧ t.sliceOf d l = some { die := d, line := l, owned := true, wts := h.wts, rts := h.rts }
            ∧ ∀ c ∈ t.slices, c.line = l → c.die = d))
      ∧ (∀ c, s.sliceOf d l = some c → s.arg.t ≤ c.rts → exec .homeRead s = .next (s.touchDie d)))
      ∧ ((∀ c, s.sliceOf d l = some c → c.owned = false) →
        ∃ t, exec .sliceInvalidation s = .next t ∧ others t ∧ t.sliceOf d l = none
          ∧ (t.home l).shr = h.shr &&& ~~~(1#8 <<< d.toNat) ∧ (∀ c ∈ s.slices, (c.die ≠ d ∨ c.line ≠ l) → c ∈ t.slices))
      ∧ (∀ c, s.pinnedLine d l = false → d ≠ hd → s.sliceOf d l = some c →
        (c.owned = true → h.st = .modified ∧ h.own = d) →
        ∃ t, exec .sliceEviction s = .next t ∧ others t ∧ t.sliceOf d l = none
          ∧ (∀ k ∈ s.slices, (k.die ≠ d ∨ k.line ≠ l) → k ∈ t.slices)
          ∧ (c.owned = true → (t.home l).st = .inv ∧ (t.home l).wts = c.wts ∧ (t.home l).rts = c.rts)
          ∧ t.cells = s.cells.filter (fun c => ¬(c.die = d ∧ c.pa / 64 = l)))
      ∧ (l < 2 ^ 34 →
        (h.held = true → exec .lineFill s = .next s)
        ∧ (h.held = false → s.cachedLines hd < cacheLines →
          ∃ t, exec .lineFill s = .next t ∧ others t ∧ t.home l = { h with held := true })
        ∧ ((h.written = false ∨ s.pinnedLine hd l = true) → exec .lineWriteback s = .next s)
        ∧ (h.written = true → s.pinnedLine hd l = false →
          ∃ t, exec .lineWriteback s = .next t ∧ others t ∧ t.home l = { h with held := false, written := false }))
      ∧ exec .dtRiseReport s = .next { s with mt := max s.mt e.dt }
      ∧ (let z := s.focus s.arg.n
         let va := s.arg.va
         let root := z.rootOf z.slot
         (root = 0 → exec .pageWalk s = .next (z.takeTrap (pageFault s.arg.kind va 4 1)))
          ∧ (∀ pa t, z.walkFill z.ctx va s.arg.kind = .ok pa t → exec .pageWalk s = .next t)
          ∧ (∀ n3 n2 pg : Nat,
            let a4 := root.toNat + 8 * (fld va 48 8 : BitVec 8).toNat
            let a3 := n3 + 8 * (fld va 39 9 : BitVec 9).toNat
            let a2 := n2 + 8 * (fld va 30 9 : BitVec 9).toNat
            root ≠ 0 → (∀ n ∈ [root.toNat, n3, n2, pg], n % 4096 = 0 ∧ n < 2 ^ 40) → pg % 2 ^ 30 = 0 → z.slot.mode = 0 →
            (∀ a ∈ [a4, a3, a2], s.poisoned (a / 64) = false ∧ (s.home (a / 64)).host = false) →
            s.mem.read a4 8 = n3 + 1 → s.mem.read a3 8 = n2 + 1 → s.mem.read a2 8 = pg + 0xFF →
            ∃ t, exec .pageWalk s = .next t ∧ t.slot = z.slot ∧ t.mem = s.mem ∧ tlbFind (t.getCore z.coreNo).tlb root va
              = some { root, vpn := fld va 12 44, level := 2, pte := BitVec.ofNat 64 (pg + 0xFF) }))
      ∧ (s.arg.wants = true → e.replays < 32 →
        exec .seamFlitReplay s = .next (s.modDie d fun e => { e with replays := 0, waitFrom := none }))
      ∧ (s.arg.wants = false → e.replays < 32 →
        let t := s.modDie d fun e => { e with replays := e.replays + 1, waitFrom := some (e.waitFrom.getD s.cycle) }
        exec .seamFlitReplay s = .next (if e.replays = 31 then t.post .seamLoss { die := d } else t))
      ∧ (e.lost = true → exec .seamLoss s = .next s)
      ∧ (e.lost = false → (32 ≤ e.replays ∨ ∃ c, e.waitFrom = some c ∧ c + 2 ^ 16 ≤ s.cycle) →
        ∃ t, exec .seamLoss s = .next t ∧ (t.die d).lost = true
        ∧ (∀ c ∈ t.slices, c.die ≠ d) ∧ (∀ c ∈ t.cells, c.die ≠ d) ∧ (∀ k ∈ t.queues, queueDie k.num ≠ d)
        ∧ (s.busySlots d = [] → ∀ p ∈ s.homes, p.2.st = .modified → p.2.own = d → p.1 ∈ t.poison))

/-- A CXL.mem read of an unheld device line returns its bytes and marks that the host may hold it; a write stores at
the home and completes; an invalidation drops every slice copy; a request for a line with an outstanding
back-invalidation waits; the answer to that ends it, and where the host gave the line up the hardware's writes that
wait there are performed, which wait at all by the model's choice (log 33). A snoop of a host line returns its data or
a completion, SNPINV dropping every copy with WTS := RTS + 1, SNPDATA leaving it shared, SNPCUR changing nothing. A
fill brings the line to its proxy home. The reads and writes are stated where the home slice holds the line or has
room for it. MEMINV is presumed (log 61); when these inputs land, and that a MemWr leaves the host no modified copy,
are the model's choices (log 58). Rests on R225, R403, R408, R410, R411, R421. -/
def Obligations.HostRequestsAndSnoopsAreAnswered : Prop :=
  ∀ (s : State),
    let l := s.arg.line
    let h := s.home l
    let hd := homeDie (l * 64)
    let bytes := s.arg.data.take 64
    let listed : Prop := ∀ c ∈ s.slices, c.line = l → c.die ≠ hd ∧ (c.owned = true → h.st = .modified ∧ h.own = c.die)
    let room : Prop := h.held = true ∨ s.cachedLines hd < cacheLines
    let alone (t : State) : Prop := listed → (∀ c ∈ t.slices, c.line ≠ l) ∧ (t.home l).shr = 0 ∧ (t.home l).st = .inv
    (l < 2 ^ 34 → s.bisnp.contains l = true →
      exec .memrd s = .next (s.post .memrd s.arg) ∧ exec .memwr s = .next (s.post .memwr s.arg)
        ∧ exec .meminv s = .next (s.post .meminv s.arg))
      ∧ (l < 2 ^ 34 → s.bisnp.contains l = false → s.poisoned l = false → s.touchesRange (l * 64) 64 = false →
        (room → ∃ t, exec .memrd s = .next t ∧ t.mem = s.mem ∧ (t.home l).host = true ∧ (t.home l).st ≠ .modified
          ∧ (t.home l).hostMod = (h.hostMod || s.arg.wants) ∧ t.outbox = s.outbox ++ [.hostData l (s.lineData l) false])
        ∧ (room → ∃ t, exec .memwr s = .next t ∧ t.mem = s.mem.write (l * 64) bytes.length (natOfBytes bytes)
          ∧ (t.home l).hostMod = false ∧ t.outbox = s.outbox ++ [.hostDone l false] ∧ alone t)
        ∧ (∃ t, exec .meminv s = .next t ∧ t.mem = s.mem ∧ (t.home l).host = true ∧ (t.home l).hostMod = true
          ∧ t.outbox = s.outbox ++ [.hostDone l false] ∧ alone t))
      ∧ (l < 2 ^ 34 → s.bisnp.contains l = false → s.poisoned l = true →
        let u := s.messageDie hd
        exec .memwr s = .next (u.send (.hostDone l true)) ∧ exec .memrd s = .next (u.send (.hostData l (s.lineData l) true))
          ∧ exec .meminv s = .next (u.send (.hostDone l true)))
      ∧ (s.bisnp.contains l = true → (s.arg.wants = true ∨ s.hasDeferred l = false) → ∃ t, exec .bisnpResponse s = .next t
        ∧ t.bisnp = s.bisnp.filter (fun k => k ≠ l) ∧ (t.home l).hostMod = false
        ∧ (t.home l).host = (h.host && !s.arg.wants) ∧ t.hasDeferred l = false
        ∧ (s.hasDeferred l = false → t.mem = (if bytes = [] ∨ s.poisoned l = true then s.mem
          else s.mem.write (l * 64) bytes.length (natOfBytes bytes))))
      ∧ (2 ^ 45 ≤ l → l < 2 ^ 46 → h.hostSt = .inv →
        let u := (s.messageDie hd).send (.hostDone l false)
        exec .snpinv s = .next u ∧ exec .snpdata s = .next u ∧ exec .snpcur s = .next u)
      ∧ (2 ^ 45 ≤ l → l < 2 ^ 46 → h.hostSt ≠ .inv → s.poisoned l = false →
        exec .snpcur s = .next ((s.touchDie hd).send (.hostData l (s.lineData l) false))
          ∧ (h.st ≠ .modified → exec .snpdata s = .next (((s.touchDie hd).setHome l { h with hostSt := .shared }).send
            (.hostData l (s.lineData l) false)))
          ∧ (∃ t, exec .snpinv s = .next t ∧ t.mem = s.mem ∧ (t.home l).hostSt = .inv ∧ alone t
            ∧ (h.st ≠ .modified → (t.home l).wts = h.rts + 1 ∧ h.rts + 1 ≤ t.mt)
            ∧ t.outbox = s.outbox ++ [if h.hostSt = .modified then .hostData l (s.lineData l) false else .hostDone l false]))
      ∧ (s.fills.contains l = true → (s.die hd).lost = false →
        ∃ t, exec .proxyHomeLineFill s = .next t ∧ t.fills = s.fills.filter (fun k => k ≠ l)
          ∧ (t.home l).hostSt = (if s.arg.wants then .modified else .shared)
          ∧ t.mem = s.mem.writeList (l * 64) bytes)

/-- A write of NCMD with BUSY 0 sets BUSY and TAG; with BUSY 1 it counts in NREF alone. An issued command is judged in
the order of the rules and answers its result code with BUSY 0 and MSI-X vector 0. In phase BOOTED each of region
create and kill, queue bind, image load, checkpoint, restore, attest, telemetry, engine reset and shutdown has its
effect, boot in phase READY; NARG takes a write while BUSY is 0. The model's choices: an address that the host does
not have gives result 7 (log 64), the refusals where a rule is read two ways (logs 56 and 68), and whether a transfer
succeeds is free (log 57). Rests on R160, R162, R173, R391, R440, R441, R442, R443, R444, R445, R448, R451. -/
def Obligations.ManagementCommandsRunAndFinish : Prop :=
  ∀ (s : State),
    let w := s.arg.v
    let code := (fld w 0 16 : BitVec 16).toNat
    let n := s.nasum
    let all : List (Instr × Nat) := [(.boot, 1), (.imageLoad, 2), (.regionCreate, 3), (.regionKill, 4), (.queueBind, 5),
      (.checkpoint, 6), (.restore, 7), (.attest, 8), (.telemetry, 9), (.engineReset, 10), (.shutdown, 11)]
    let does (i : Instr) (f : State → NDone) : Prop := exec i s = .next (f s).finish
    (∀ p ∈ (.unknownCommandCode, code) :: all,
      (if p.1 = .unknownCommandCode then (code = 0 ∨ 11 < code) else code = p.2) →
        (s.arg.wants = false →
          (n.busy = true → exec p.1 s = .next { s with nasum := { n with nref := n.nref + 1 } })
          ∧ (n.busy = false → exec p.1 s = .next ({ s with nasum := { n with busy := true, tag := fld w 16 16 } }.post p.1
              { s.arg with wants := true })))
        ∧ (s.arg.wants = true → n.busy = true →
          let judged (c : Nat) : Prop := exec p.1 s = .next { s with
            nasum := { n with result := BitVec.ofNat 16 c, busy := false }, outbox := s.outbox ++ [.msix 0] }
          (n.phase = 0xFFFF → judged 4)
            ∧ (n.phase ≠ 0xFFFF → (fld w 32 32 : BitVec 32) ≠ 0 → judged 2)
            ∧ (n.phase ≠ 0xFFFF → (fld w 32 32 : BitVec 32) = 0 → (code = 0 ∨ 11 < code) → judged 1)
            ∧ (n.phase ≠ 0xFFFF → (fld w 32 32 : BitVec 32) = 0 → 1 ≤ code → code ≤ 11 →
              n.phase ≠ (if code = 1 then 5 else 6) → judged 4)))
      ∧ (s.arg.wants = true → n.busy = true → (fld w 32 32 : BitVec 32) = 0 →
        (n.phase = 5 → code = 1 → does .boot State.boot)
        ∧ (n.phase = 6 →
          (code = 2 → does .imageLoad State.imageLoad) ∧ (code = 3 → does .regionCreate State.regionCreate)
            ∧ (code = 4 → does .regionKill State.regionKill) ∧ (code = 5 → does .queueBind State.queueBind)
            ∧ (code = 6 → does .checkpoint State.checkpoint) ∧ (code = 7 → does .restore State.restore)
            ∧ (code = 8 → does .attest State.attest) ∧ (code = 9 → does .telemetry State.telemetry)
            ∧ (code = 10 → does .engineReset State.engineReset) ∧ (code = 11 → does .shutdown State.shutdown)))
      ∧ (∀ q : NDone, q.finish.nasum.busy = false ∧ q.finish.nasum.result = BitVec.ofNat 16 q.code
          ∧ q.finish.outbox = q.state.outbox ++ [.msix 0] ∧ q.finish.mem = q.state.mem)
      ∧ (n.busy = true → exec .ncmdWriteWhileBusy s = .next { s with nasum := { n with nref := n.nref + 1 } })
      ∧ (n.busy = false →
        exec .nargWrite s = .next { s with nasum := { n with narg := n.narg.setIfInBounds s.arg.t s.arg.v } })
      ∧ (n.busy = true → exec .nargWrite s = .next s)
      ∧ (let h : BitVec 32 := fld (n.arg 0) 0 32
         (fld (n.arg 0) 32 32 : BitVec 32) = 0 → (s.region h).isSome = true →
          s.regionKill.code = 0 ∧ s.regionKill.state = s.killRegion h)
      ∧ (s.regionCreate.code = 0 → ∃ r, s.regionCreate.state.regions = s.regions ++ [r]
        ∧ r.handle = BitVec.ofNat 32 n.nextHandle ∧ r.rcb = (n.arg 0).toNat ∧ r.mode.toNat < 2)
      ∧ (n.arg 1 = 0 → (n.arg 0).toNat < 4096 → s.queueBind.code = 0
        ∧ s.queueBind.state.queues = s.queues.filter fun k => k.num.toNat ≠ (n.arg 0).toNat)
      ∧ (16 ≤ (n.arg 0).toNat → s.checkpoint.code = 2 ∧ s.restore.code = 2)
      ∧ (n.burnt = 1024 → s.attest.code = 6)
      ∧ ((2 ^ 51 < (n.arg 0).toNat + 4096) → s.telemetry.code = 7)
      ∧ (s.shutdown.code = 0 ∧ s.shutdown.state.nasum.phase = 7 ∧ ∀ d, (s.shutdown.state.die d).power = .off)
      ∧ ((fld (n.arg 0) 7 57 : BitVec 57) = 0 → (fld (n.arg 1) 8 56 : BitVec 56) = 0 → s.engineReset.code = 0
        ∧ ∀ m ∈ s.engineReset.state.cmds, ¬((n.arg 0).getLsbD m.eng.toNat = true
          ∧ (n.arg 1).getLsbD (dieOf m.slot).toNat = true))

/-- MODULE_RESET leaves phase READY or FAILED, every slot FREE, no region, queue or command, and device memory as at
reset; the one-time cells, the safe tier and host memory outlast it, and one cell more is burnt. DIE_IDLE gates a die
that nothing has used for 2^20 of its cycles, DIE_WAKE ends that, POWER_REFRESH takes new sensor values, and
CLOCK_LEVEL_STEP waits for the die's boundary of 1024 cycles, sets LEVEL and counts a downward step with its cause.
The model's choices: what a reset leaves (log 55), the cycles that pass with a step (log 54), and when a level steps
(log 60). Rests on R438, R446, R447, R449, R450, R451. -/
def Obligations.ModuleResetAndPowerEvents : Prop :=
  ∀ (s : State),
    let d := s.arg.die
    let e := s.die d
    (∃ t, exec .moduleReset s = .next t ∧ (t.nasum.phase = 5 ∨ t.nasum.phase = 0xFFFF) ∧ t.slot.st = .free
        ∧ t.others = [] ∧ t.regions = [] ∧ t.queues = [] ∧ t.cmds = [] ∧ t.inbox = [] ∧ t.safe = s.safe
        ∧ t.nasum.verCells = s.nasum.verCells ∧ t.nasum.burnt = min (max s.nasum.burnt 1024) (s.nasum.burnt + 1)
        ∧ t.mem = s.mem.filter (fun c => 2 ^ 51 ≤ c.1 && c.1 < 2 ^ 52))
      ∧ (e.power = .active → s.busySlots d = [] → (∀ m ∈ s.cmds, dieOf m.slot ≠ d) →
        e.busyAt + 2 ^ 20 ≤ e.cycle → exec .dieIdle s = .next (s.modDie d fun e => { e with power := .idle }))
      ∧ (e.power = .idle → exec .dieWake s = .next (s.modDie d fun e => { e with power := .active }))
      ∧ (∃ t, exec .powerRefresh s = .next t ∧ (t.die d).pwrAt = e.cycle
        ∧ (fld (t.die d).pwr 0 40 : BitVec 40) = fld e.pwr 0 40 ∧ t.mem = s.mem ∧ t.slot = s.slot
        ∧ ∀ k, k ≠ d → t.die k = s.die k)
      ∧ (s.arg.t ≤ 3 → s.arg.t ≠ (fld e.pwr 0 4 : BitVec 4).toNat → e.cycle % 1024 ≠ 0 →
        exec .clockLevelStep s = .next (s.post .clockLevelStep s.arg))
      ∧ (s.arg.t ≤ 3 → s.arg.t ≠ (fld e.pwr 0 4 : BitVec 4).toNat → e.cycle % 1024 = 0 →
        ∃ t, exec .clockLevelStep s = .next t ∧ (fld (t.die d).pwr 0 4 : BitVec 4).toNat = s.arg.t
          ∧ (fld (t.die d).pwr 40 24 : BitVec 24) = fld e.pwr 40 24
          ∧ ((fld e.pwr 0 4 : BitVec 4).toNat < s.arg.t →
            (fld (t.die d).pwr 8 24 : BitVec 24).toNat = min ((fld e.pwr 8 24 : BitVec 24).toNat + 1) (2 ^ 24 - 1)
              ∧ (fld (t.die d).pwr 4 3 : BitVec 3) = fld s.arg.v 0 3)
          ∧ (s.arg.t < (fld e.pwr 0 4 : BitVec 4).toNat →
            (fld (t.die d).pwr 4 36 : BitVec 36) = fld e.pwr 4 36))

/-- With nothing brought about, the slot in place the only agent and no trap due in it, or the instruction it was
parked at to be run first: a word fetched at the aligned PC that decodes to i makes the step exec of i on the fetched
state with the word latched, the slot then moving on to npc (its body's next position inside a body), its fences
completing and time passing; a word that decodes to nothing takes ILLEGAL, a prefix with a reserved bit once the word
after it is fetched; a slot that holds an instruction runs that one, and a body runs the word at its position. In
firmware mode with an empty instruction cache and nothing fetched ahead the fetched word is the four bytes of device
memory at the PC. State.withFetchWord leaves such a state for the word it places. The model's choices: that state (log
2), one agent a step (log 5), the time that passes with it (log 54), and stores performed before a reply that reports
POISON (log 99). Rests on R24, R31, R63, R64, R66, R423, R452. -/
def Obligations.StepRunsTheDecodedInstruction : Prop :=
  ∀ (s : State), s.inbox = [] → s.agents = [.turn s.slotNo] →
    (s.slot.woken = true ∨ (s.slot.limitDue = false ∧ s.slot.efaults = [])) →
    let goes (before : Slot) (o : Out) : Out :=
      match o with
      | .next t =>
        let q := (State.commit before t).settleFences
        .next ({ q with drawn := q.drawn + 1 }.elapse q.drawn)
      | .fault f => .fault f
      | .refused r => .refused r
    (s.slot.hold = false → s.slot.loop = false → fld s.slot.pc 0 2 = (0 : BitVec 2) →
      ∀ w s1, s.fetchAt s.slot.pc = .ok w s1 →
        (∀ i, decode w = some i → step s = goes s1.slot (exec i (s1.upd fun t => t.latch w)))
          ∧ (decode w = none →
            let u := s1.upd fun t => t.latch w
            (fld w 26 6 ≠ (0x3F : BitVec 6) → step s = goes s1.slot u.illegal)
              ∧ (fld w 26 6 = (0x3F : BitVec 6) → ∀ x t, u.pairWord = .ok x t → step s = goes s1.slot t.illegal)))
      ∧ (s.slot.hold = true → ∀ i, decode s.slot.ir = some i →
        step s = goes s.slot (exec i (s.upd fun t => t.latch t.ir)))
      ∧ (s.slot.hold = false → s.slot.loop = true → s.slot.issues s.slot.bpos.toNat = true →
        ∀ w, s.slot.body[s.slot.bpos.toNat]? = some w → ∀ i, decode w = some i →
          step s = goes s.slot (exec i (s.upd fun t => t.latch w)))
      ∧ (∀ (b : Slot) (t : State),
        (t.slot.st ≠ .faulted → State.commit b t = t.upd (Slot.commit b))
          ∧ (State.commit b t).slot = { Slot.commit b t.slot with
              unacked := (State.commit b t).slot.unacked, packets := (State.commit b t).slot.packets })
      ∧ (∀ b t : Slot, t.st = .running → t.hold = false → t.loop = false → (Slot.commit b t).pc = t.npc)
      ∧ (s.slot.mode = 2 → s.slot.pc.toNat < 2 ^ 40 → fld s.slot.pc 0 2 = (0 : BitVec 2) → s.core.icache = [] →
        s.slot.ahead = [] →
        s.poisoned (s.slot.pc.toNat / 64) = false → s.hostHolds (s.slot.pc.toNat / 64) false = false →
        ∃ s1, s.fetchAt s.slot.pc = .ok (BitVec.ofNat 32 (s.mem.read s.slot.pc.toNat 4)) s1
          ∧ s1.slot = { s.slot with ahead := s1.slot.ahead } ∧ s1.mem = s.mem)
      ∧ (∀ w, w < 2 ^ 32 → (decode (BitVec.ofNat 32 w)).isSome = true →
        let p := s.withFetchWord 32 w
        p.inbox = [] ∧ p.agents = [.turn p.slotNo] ∧ p.slot.limitDue = false ∧ p.slot.efaults = [] ∧ p.slot.hold = false
          ∧ p.slot.loop = false ∧ p.slot.mode = 2 ∧ p.core.icache = [] ∧ p.slot.ahead = [] ∧ p.slot.fences = []
          ∧ p.slot.x = s.slot.x ∧ p.slot.v = s.slot.v ∧ p.mem.read p.slot.pc.toNat 4 = w)

/-- Thirty-nine words of cores and four of memory cores decode to their instruction with its operands, as the spec's
examples write them out, or, of j, jalr, vst and the prefix, as its encoding tables put them together; every major of
R65 that has words is among them. Rests on R63, R65, R66, R85, R106, R151, R346. -/
def Obligations.DecodeReadsTheSpecsWords : Prop :=
  decode 0x64853248 = some (.vadd 4 5 6 9 1) ∧ decode 0x30623010 = some (.ldW 3 2 3 16)
    ∧ decode 0x08642828 = some (.bilv2 3 4 5) ∧ decode 0x04420008 = some (.addi 2 2 8)
    ∧ decode 0x108C1FFC = some (.bne 3 0 0x1FFC) ∧ decode 0x4C820000 = some (.stD 4 2 0 0)
    ∧ decode 0x80000004 = some (.done) ∧ decode 0x1C070001 = some (.lcount 0 7)
    ∧ decode 0xE0071062 = some (.crw 0 7 0x62) ∧ decode 0x60200801 = some (.vtag 1 1)
    ∧ decode 0x6C812080 = some (.vcvt 4 1 4 2 0 0) ∧ decode 0x60622800 = some (.vcfg 3 2 0 5)
    ∧ decode 0x74240000 = some (.vld 1 4 0 0) ∧ decode 0x80821800 = some (.emit 4 2 3)
    ∧ decode 0x84A21808 = some (.waita 5 2 3 1 0) ∧ decode 0x88060801 = some (.barWait 6 1)
    ∧ decode 0x90050004 = some (.fence 5 4) ∧ decode 0x50821004 = some (.stq 4 2 1 2)
    ∧ decode 0x7D042145 = some (.vamoAdd 8 4 0 0 5 1 1) ∧ decode 0x56D550C5 = some (.amoMinu 22 21 0 0 3 1 1)
    ∧ decode 0x9CA20000 = some (.crange 5 2) ∧ decode 0x98A20000 = some (.shapeSeal 5 2)
    ∧ decode 0xA000AE80 = some (.mqCopy 21 26) ∧ decode 0xA0802803 = some (.sbArm 5 3)
    ∧ decode 0xA2810000 = some (.gxPrim) ∧ decode 0xA408A000 = some (.eregW 0 8 20)
    ∧ decode 0xC1022800 = some (.texSmp 8 2 5 0) ∧ decode 0xE0006000 = some (.tret)
    ∧ decode 0x95022800 = some (.cellPropose 8 2 5) ∧ decode 0x80A21805 = some (.penq 5 2 3)
    ∧ decode 0x05047020 = some (.srli 8 4 32) ∧ decode 0x08647389 = some (.fcvtf 3 4 14 1 1)
    ∧ decode 0x14000002 = some (.j 2) ∧ decode 0x18220004 = some (.jalr 1 2 4)
    ∧ decode 0x68430802 = some (.vclt 2 3 1 0 0) ∧ decode 0x71060007 = some (.vredsum 8 6 0)
    ∧ decode 0x78820244 = some (.vst 4 2 9 1) ∧ decode 0x8CE00801 = some (.lkstallc 7 1)
    ∧ decode 0xFE4FE000 = some (.pfx true false false true false false 0x7F)
    ∧ decodeMc 0x0B050000 = some (.mcSub 12 1 4) ∧ decodeMc 0x30048000 = some (.mcRd 0 1 2)
    ∧ decodeMc 0x44000000 = some (.mcEnd) ∧ decodeMc 0x27400003 = some (.mcAddi 13 0 3)

/-- After module reset the byte stores are canonical and the registers of the command window are 0. Every slot is FREE
in firmware mode: registers 0, vector registers 0 with tag i64, complete, read pointer IDLE; VTYPE.ILL 1, VLMAXP 8,
FOOTH 0x10000, FLAGS 5, LCNT 1, LCTL 0x101, SLOTID and COREID its number, every other control register of the list 0.
Nothing is listed in memory, which is the model's choice (log 1). Rests on R7, R13, R14, R17, R18, R19, R20, R21, R30,
R170, R208, R440. -/
def Obligations.ResetIsCanonicalAndAsTheSpecSays : Prop :=
  State.reset.Canonical ∧ State.reset.mem = [] ∧ State.reset.nasum.nstat = 0 ∧ State.reset.nasum.nref = 0
    ∧ (∀ i, i < 7 → State.reset.nasum.arg i = 0)
    ∧ ∀ n : SlotNo,
      let s := State.reset.focus n
      s.slotNo = n ∧ s.slot.st = .free ∧ (∀ r, s.getX r = 0)
        ∧ (∀ k : Fin 32, (s.slot.v.get k).data = 0 ∧ (s.slot.v.get k).tag = 13 ∧ (s.slot.v.get k).prog = none
          ∧ (s.slot.v.get k).rdp = none)
        ∧ (∀ p ∈ [(0x00, (0x20 : Dword)), (0x01, 0x8000), (0x02, 0), (0x03, 8), (0x04, 0x10000), (0x20, 0), (0x21, 0),
            (0x22, 0),
            (0x23, 5), (0x30, 0), (0x34, 0), (0x35, 0), (0x36, 0), (0x37, 0), (0x40, 0), (0x41, 0), (0x42, 0), (0x43, 0),
            (0x44, 0), (0x60, 0), (0x61, 0), (0x62, 0x101)], s.crRead p.1 = p.2)
        ∧ (∀ k, 0x10 ≤ k → k ≤ 0x1F → s.crRead k = 0) ∧ (∀ k, 0x50 ≤ k → k ≤ 0x55 → s.crRead k = 1)
        ∧ (∀ k, 0x58 ≤ k → k ≤ 0x5D → s.crRead k = 0)
        ∧ s.crRead 0x32 = BitVec.ofNat 64 (n.toNat % 8) ∧ s.crRead 0x33 = BitVec.ofNat 64 (n.toNat / 8)

/-- For every well-formed instruction that has a core's word, decoding its encoding gives it back, and so for a memory
core's word; and every word that decodes, on a core or on a memory core, is the encoding of what it decodes to, which
is well formed. Rests on R63, R64, R65, R66, R67, R346. -/
def Obligations.DecodeAndEncodeAgree : Prop :=
  (∀ i : Instr, i.wf = true → (i.hasWord = true → decode i.encode = some i)
        ∧ (i.hasMcWord = true → decodeMc i.encode = some i))
    ∧ (∀ (w : BitVec 32) (i : Instr), decode w = some i ∨ decodeMc w = some i → i.encode = w ∧ i.wf = true)

/-- From any state whose memory and stored checkpoints are in canonical form (addresses strictly rising, no byte
listed that equals what an unlisted address reads as; checkpoints hold device memory alone), a step that gives a next
state gives one in that form, whichever agent acts. Rests on R230, R398, R444. -/
def Obligations.EveryStepKeepsMemoryCanonical : Prop :=
  ∀ s t : State, s.Canonical → step s = .next t → t.Canonical

/-- In user and supervisor mode a translation that the TLB holds, and that it still holds at the access, maps the
address and checks the permission; any other access walks from ROOT. ROOT 0 faults at level 4 with reason 1. At each
level an entry with V 0 gives reason 1, a malformed one 3, a leaf that maps no memory or a next node outside device
and host memory 4, a leaf without permission 2; a permitted leaf gives the physical address, with A, and for a store
D, set in the entry at its home; else the walk goes on one level down. The cause is that of the access, TVAL its
address, TXVAL the level and the reason. ld.d and st.d that translate to device memory that is there then read or
write its bytes, and one that does not takes the page fault. Whether a held translation is used is free; that A, D and
the TLB entry stay where the access traps later is the model's choice (log 78). Rests on R107, R108, R373, R383, R384,
R385, R386. -/
def Obligations.AccessesGoThroughTheTranslation : Prop :=
  ∀ (s : State) (d a : RegNo) (k : BitVec 4) (i : BitVec 12), s.slot.mode ≠ 2 →
    let va := s.src [] a + i.signExtend 64
    let c := s.ctxC k
    let root := s.rootOf s.slot
    let fault (kd : AccessKind) (level reason : Nat) : TrapInfo :=
      { cause := match kd with | .fetch => 9 | .read => 10 | .write => 11
        tval := va, txval := BitVec.ofNat 64 (level * 16 + reason) }
    (∀ kd : AccessKind,
        (∀ e, tlbFind s.core.tlb root va = some e → Config.tlbHolds s.drawn = true →
          (kd = .write → e.pte.getLsbD 7 = true) →
          let pa := leafPa e.level e.pte va
          s.translate c va kd = (if s.phys pa = .none then .trap (fault kd e.level 4) { s with drawn := s.drawn + 1 }
            else if pteAllows s.slot.mode kd e.pte then .ok pa { s with drawn := s.drawn + 1 }
            else .trap (fault kd e.level 2) { s with drawn := s.drawn + 1 }))
        ∧ (tlbFind s.core.tlb root va = none → s.translate c va kd = s.walkFill c va kd)
        ∧ (root = 0 → s.walkFill c va kd = .trap (fault kd 4 1) s)
        ∧ (root ≠ 0 → s.nodeOk root.toNat = false → s.walkFill c va kd = .trap (fault kd 4 4) s)
        ∧ (∀ t l, s.walk c va kd 4 root.toNat = .ok l t → root ≠ 0 → s.nodeOk root.toNat = true →
            ∃ u, s.walkFill c va kd = .ok (leafPa l.level l.pte va) u ∧ u.mem = t.mem
              ∧ tlbFind (u.getCore s.coreNo).tlb root va
                = some { root, vpn := fld va 12 44, level := l.level, pte := l.pte })
        ∧ (∀ (t : State) (level node : Nat), t.coreNo = s.coreNo →
          let e := node + 8 * (match level with
            | 4 => (fld va 48 8 : BitVec 8).toNat | 3 => (fld va 39 9 : BitVec 9).toNat
            | 2 => (fld va 30 9 : BitVec 9).toNat | 1 => (fld va 21 9 : BitVec 9).toNat
            | _ => (fld va 12 9 : BitVec 9).toNat)
          t.poisoned (e / 64) = false → e < 2 ^ 40 → t.hostHolds (e / 64) false = false →
          ∃ u : State, u.mem = t.mem ∧ u.slot = t.slot ∧
            (let pte : Dword := BitVec.ofNat 64 (t.mem.read e 8)
             let next := (fld pte 12 40 : BitVec 40).toNat * 4096
             (pte.getLsbD 0 = false → t.walk c va kd level node = .trap (fault kd level 1) u)
              ∧ (pte.getLsbD 0 = true → pteMalformed level pte = true →
                t.walk c va kd level node = .trap (fault kd level 3) u)
              ∧ (pte.getLsbD 0 = true → pteMalformed level pte = false → pte.getLsbD 1 = true →
                (u.phys (leafPa level pte va) = .none → t.walk c va kd level node = .trap (fault kd level 4) u)
                ∧ (u.phys (leafPa level pte va) ≠ .none → pteAllows s.slot.mode kd pte = false →
                  t.walk c va kd level node = .trap (fault kd level 2) u)
                ∧ (u.phys (leafPa level pte va) ≠ .none → pteAllows s.slot.mode kd pte = true →
                  t.hostHolds (e / 64) true = false →
                  let new := pte ||| (if kd = .write then 0xC0 else 0x40)
                  ∃ w, t.walk c va kd level node = .ok ⟨level, new⟩ w
                    ∧ w.mem = (if new = pte then t.mem else t.mem.write e 8 new.toNat)))
              ∧ (pte.getLsbD 0 = true → pteMalformed level pte = false → pte.getLsbD 1 = false →
                t.walk c va kd level node = if u.nodeOk next = true then u.walk c va kd (level - 1) next
                  else .trap (fault kd level 4) u))))
      ∧ (∀ (u n x w : Bool) (pte : Dword), pte.getLsbD 5 = u → pte.getLsbD 2 = n → pte.getLsbD 3 = w → pte.getLsbD 4 = x →
        pteAllows s.slot.mode .fetch pte = (x && (if s.slot.mode = 0 then u else !u))
          ∧ pteAllows s.slot.mode .read pte = (n && (s.slot.mode ≠ 0 || u))
          ∧ pteAllows s.slot.mode .write pte = (w && (s.slot.mode ≠ 0 || u)))
      ∧ (va.toNat < 2 ^ 56 → va.toNat % 8 = 0 → isLocal va = false →
        (s.LinksOk [a] (some d) →
          (∀ tr t, s.translate c va .read = .trap tr t → exec (.ldD d a k i) s = .next (t.takeTrap tr))
          ∧ (∀ pa t, s.translate c va .read = .ok pa t → pa < 2 ^ 40 → t.poisoned (pa / 64) = false →
            t.hostHolds (pa / 64) false = false → t.touchesRange pa 8 = false →
            t.interlocked c va.toNat 8 false false = false →
            let r := t.readLine s.coreNo (pa / 64) true (8 ≤ s.slot.footh.toNat)
            exec (.ldD d a k i) s
              = .next (r.1.retire [a] d (BitVec.ofNat 64 (r.2.toNat / 2 ^ (8 * (pa % 64)) % 2 ^ 64)))))
        ∧ (s.LinksOk [a, d] none →
          (∀ tr t, s.translate c va .write = .trap tr t → exec (.stD d a k i) s = .next (t.takeTrap tr))
          ∧ (∀ pa t, s.translate c va .write = .ok pa t → pa < 2 ^ 40 → t.poisoned (pa / 64) = false →
            t.hostHolds (pa / 64) true = false → t.touchesRange pa 8 = false →
            t.interlocked c va.toNat 8 true false = false →
            ∃ u, exec (.stD d a k i) s = .next u ∧ u.slot = t.slot
              ∧ u.mem = t.mem.write pa 8 (s.src [a] d).toNat)))

/-- A scalar load or store by an address in an alias window whose descriptor is a decode window traps MISALIGNED
unless its size is the register width of VIEW, ADDRESS where the stored bits pass the end of the scratchpad, and a
store ILLEGAL where FRM is reserved; else a load gives the stored element as VIEW rounds it and a store rounds once in
FRM's mode, raises its flags, writes the element's bits alone and, with RSR, advances SRSEED. Through a plane-form
window a store traps ADDRESS, and a load gives bits of the plane, or side entries, of the stored elements, or traps
ADDRESS where they pass the end. The core and the lines of the bytes carry on the times of stores (log 106). The
model's choices: that a store through a decode window advances SRSEED under RSR (log 22), that MISALIGNED and ADDRESS
come before the ILLEGAL of a reserved FRM (log 112), and what a plane-form load that is wider than its window's bytes
gives (log 102). Rests on R48, R107, R108, R210, R211, R212, R213. -/
def Obligations.WindowsDecodeAndShowPlanes : Prop :=
  ∀ (s : State) (d a : RegNo) (c : BitVec 4) (i : BitVec 12),
    let va := s.src [] a + i.signExtend 64
    ∀ w off n, locOf s.coreNo va n = .win w off → va.toNat < 2 ^ 56 → va.toNat % n = 0 →
    let f := s.slot.wfmt.toList.getD w 0
    let st := wfmtStore f
    let vw := wfmtView f
    let ws := tagMem st
    let wv := tagReg vw
    let b := windowBytes f off (off + n)
    let bits (bit : Nat) : Nat := s.mem.read (keySpad s.coreNo (bit / 8)) (ws / 8 + 2) / 2 ^ (bit % 8) % 2 ^ ws
    let trap (k : BitVec 16) (v : Dword) : Host.Outcome State Fault Refusal := .next (s.takeTrap { cause := k, tval := v })
    (s.LinksOk [a] (some d) → s.interlocked (s.ctxC c) (keySpad s.coreNo b.1) (b.2 - b.1) false true = false →
      ∀ p ∈ ([(.ldB d a c i, 1, true), (.ldBu d a c i, 1, false), (.ldH d a c i, 2, true), (.ldHu d a c i, 2, false),
          (.ldW d a c i, 4, true), (.ldWu d a c i, 4, false), (.ldD d a c i, 8, false)] : List (Instr × Nat × Bool)),
        p.2.1 = n →
        let gives (v : Nat) : Prop := ∃ t : State,
          t = { s with marks := t.marks, core := { s.core with seen := t.core.seen } }
          ∧ exec p.1 s = .next (t.retire [a] d (if p.2.2 then sextBytes n v else BitVec.ofNat 64 v))
        (wfmtKind f = 1 →
          let bit := wfmtOrigin f * 8 + off * 8 / wv * ws
          ((8 * n ≠ wv ∨ off * 8 % wv ≠ 0) → exec p.1 s = trap 4 va)
            ∧ (8 * n = wv → off * 8 % wv = 0 → spadSize * 8 < bit + ws → exec p.1 s = trap 5 va)
            ∧ (8 * n = wv → off * 8 % wv = 0 → bit + ws ≤ spadSize * 8 →
              gives (roundTo vw .rne false (decodeTag st (bits bit)) 0).code))
        ∧ (wfmtKind f = 2 → st < 22 →
          let sided := tagIsF st || tagIsT st
          let tb := 256 * tagP st + (if sided then 4096 else 0)
          let o := off % tb
          let at_ (r k : Nat) : Nat := wfmtOrigin f * 8 + ((16 * (off / tb) + r) * 128 + k) * ws
          (o < 256 * tagP st →
            let r := o % 256 / 16
            let k0 := o % 16 * 8
            (spadSize * 8 < at_ r (k0 + 8 * n - 1) + ws → exec p.1 s = trap 5 va)
            ∧ (at_ r (k0 + 8 * n - 1) + ws ≤ spadSize * 8 → ∃ v, v < 2 ^ (8 * n) ∧ gives v
              ∧ ∀ j < 8 * n, v.testBit j = (magForm st (bits (at_ r (k0 + j)))).1.testBit (o / 256)))
          ∧ (256 * tagP st ≤ o → n = 2 →
            let q := (o - 256 * tagP st) / 2
            (spadSize * 8 < at_ (q / 128) (q % 128) + ws → exec p.1 s = trap 5 va)
            ∧ (at_ (q / 128) (q % 128) + ws ≤ spadSize * 8 →
              gives (sideEntry st (bits (at_ (q / 128) (q % 128))))))))
      ∧ (s.LinksOk [a, d] none → s.interlocked (s.ctxC c) (keySpad s.coreNo b.1) (b.2 - b.1) true true = false →
        ∀ p ∈ ([(.stB d a c i, 1), (.stH d a c i, 2), (.stW d a c i, 4), (.stD d a c i, 8)] : List (Instr × Nat)),
          p.2 = n →
          (wfmtKind f = 2 → exec p.1 s = trap 5 va)
          ∧ (wfmtKind f = 1 →
            let bit := wfmtOrigin f * 8 + off * 8 / wv * ws
            ((8 * n ≠ wv ∨ off * 8 % wv ≠ 0) → exec p.1 s = trap 4 va)
            ∧ (8 * n = wv → off * 8 % wv = 0 →
              (spadSize * 8 < bit + ws → exec p.1 s = trap 5 va)
              ∧ (bit + ws ≤ spadSize * 8 → 6 ≤ s.slot.frm.toNat →
                exec p.1 s = trap 1 (s.slot.ir.setWidth 64))
              ∧ (bit + ws ≤ spadSize * 8 → s.slot.frm.toNat < 6 →
                let x := decodeTag vw ((s.src [a] d).toNat % 2 ^ (8 * n))
                let q := roundTo st (rmodeOf s.slot.frm.toNat) false x (srWord s.slot.srseed s.slotNo 0)
                let key := keySpad s.coreNo (bit / 8)
                let m := (bit % 8 + ws + 7) / 8
                ∃ mk sn, exec p.1 s = .next (({ s with
                  marks := mk
                  core := { s.core with seen := sn }
                  slot := { s.slot with fflags := s.slot.fflags ||| q.flags
                                        srseed := if s.slot.frm = 5 then s.slot.srseed + 1 else s.slot.srseed }
                  mem := s.mem.write key m (natSetBits (s.mem.read key m) (bit % 8) ws q.code) } : State).popLinks
                    [a, d])))))

/-- In firmware mode, a scalar store of one element of a declared range adds its value under OP to the core's U copy
of the element and changes no memory; the U copies take their slots of the core's L1, and one that leaves is added to
the partials at the home (the model's choice, log 107); a scalar store of another width traps ADDRESS. A scalar load
collects the U copies of its line into the partials, each once, writes the rounded partials to the line and returns
its bytes; no other byte of memory changes. Partials combine in any order and grouping, for add on F and T formats and
for every operation on integer formats. That the contributing core's logical time moves above the line's last read is
the model's reading (log 97), and so is that a load of any width collects the line and reads its image (log 23). Rests
on R58, R59, R221, R222, R225, R226, R227, R241. -/
def Obligations.RangeStoresAreContributions : Prop :=
  ∀ (s : State) (d a : RegNo) (c : BitVec 4) (i : BitVec 12), s.slot.mode = 2 →
    let va := s.src [] a + i.signExtend 64
    let l := va.toNat / 64
    va.toNat < 2 ^ 40 → s.poisoned l = false → ∀ r o, s.rangeAt va.toNat = some r → r.offOf va.toNat = some o →
      (s.LinksOk [a, d] none → ∀ p ∈ ([(.stB d a c i, 1), (.stH d a c i, 2), (.stW d a c i, 4), (.stD d a c i, 8)] :
          List (Instr × Nat)), va.toNat % p.2 = 0 →
        (8 * p.2 ≠ r.ebits → exec p.1 s = .next (s.takeTrap { cause := 5, tval := va }))
        ∧ (8 * p.2 = r.ebits → o * 8 % r.ebits = 0 → s.hostHolds l true = false →
          s.interlocked (s.ctxC c) va.toNat p.2 true false = false →
          let e := o * 8 / r.ebits
          let x := r.ofCode ((s.src [a] d).toNat % 2 ^ (8 * p.2))
          ∃ t, exec p.1 s = .next t ∧ t.mem = s.mem ∧ t.slot = s.slot
            ∧ s.core.clkts ≤ t.core.clkts ∧ (s.home (r.paOf (e * r.ebits / 8) / 64)).rts < t.core.clkts
            ∧ (let w : UElem := { core := s.coreNo, elem := e, ts := t.core.clkts
                                  part := match r.ucopies.find? fun u => u.core = s.coreNo ∧ u.elem = e with
                                    | some u => r.combine u.part x
                                    | none => x }
               let q := { r with ucopies := w :: r.ucopies.filter fun u => ¬(u.core = s.coreNo ∧ u.elem = e) }
               (s.setRange q).uSlots s.coreNo ≤ l1Lines →
                q ∈ t.ranges ∧ t.core.l1.length ≤ l1Lines - (s.setRange q).uSlots s.coreNo)))
      ∧ (∀ k line, ∃ q ∈ (s.drainU r k line).ranges, (s.drainU r k line).mem = s.mem ∧ q.runs = r.runs
          ∧ (∀ w, w ∈ q.ucopies ↔ w ∈ r.ucopies ∧ ¬(w.core = k ∧ r.elemLine w.elem = line))
          ∧ ∀ e < r.parts.length, q.parts[e]? = some
            ((r.ucopies.filter fun w => (w.core = k && r.elemLine w.elem = line) && w.elem = e).foldl
              (fun z w => r.combine z w.part) (r.parts.getD e {})))
      ∧ (let u := s.collectLine r l
         let es := r.lineElems l
         let sum (e : Nat) : Partial :=
          (r.ucopies.filter fun w => w.elem = e).foldl (fun z w => r.combine z w.part) (r.parts.getD e {})
         (s.LinksOk [a] (some d) → s.hostHolds l false = false →
          ∀ p ∈ ([(.ldB d a c i, 1, true), (.ldBu d a c i, 1, false), (.ldH d a c i, 2, true), (.ldHu d a c i, 2, false),
            (.ldW d a c i, 4, true), (.ldWu d a c i, 4, false), (.ldD d a c i, 8, false)] : List (Instr × Nat × Bool)),
          va.toNat % p.2.1 = 0 → s.interlocked (s.ctxC c) va.toNat p.2.1 false false = false →
          let n := p.2.1
          let v := u.mem.read va.toNat n
          ∃ t : State, exec p.1 s = .next (t.retire [a] d (if p.2.2 then sextBytes n v else BitVec.ofNat 64 v))
            ∧ t.mem = u.mem ∧ t.ranges = u.ranges ∧ t.slot = s.slot)
         ∧ (∃ q ∈ u.ranges, q.runs = r.runs ∧ (∀ w, w ∈ q.ucopies ↔ w ∈ r.ucopies ∧ w.elem ∉ es)
          ∧ (∀ e ∈ es, e < r.parts.length → q.parts[e]? = some (sum e)) ∧ (∀ e, e ∉ es → q.parts[e]? = r.parts[e]?))
         ∧ (∀ k, k / 64 ≠ l → u.mem.get k = s.mem.get k)
         ∧ (8 ≤ r.ebits → ∀ o0, r.offOf (l * 64) = some o0 → o0 % 64 = 0 → ∀ j < 512 / r.ebits,
          o0 * 8 / r.ebits + j < r.parts.length →
          u.mem.read (l * 64 + j * r.ebits / 8) (r.ebits / 8) = r.codeOf (sum (o0 * 8 / r.ebits + j)) % 2 ^ r.ebits))
      ∧ (r.exact = true ∨ tagIsI r.fmt.toNat = true ∨ tagIsN r.fmt.toNat = true → ∀ x y z : Partial,
        r.combine x y = r.combine y x ∧ r.combine (r.combine x y) z = r.combine x (r.combine y z))
end

