-- ==== Sys2Proof/Laws/Engine.lean ====
section
/-! SUPPORT. What issue, its checks and the results of a step answer: cited instead of unfolding them. -/

namespace Sys2Proof.Machine

theorem State.cwaGate_ok (s : State) (e : Nat) (k : Out) (h : s.CwaOk e) : s.cwaGate e k = k := by
  unfold State.CwaOk at h
  unfold State.cwaGate
  rcases h.2 with h | ⟨h1, h2⟩
  · simp [h]
  · simp [h1, h2]

theorem State.handleGate_ok (s : State) (hs : List Dword) (k : Out) (h : s.HandlesOk hs) : s.handleGate hs k = k := by
  unfold State.handleGate
  have : hs.find? (fun h => (s.shapeOf (clusOfCore s.coreNo) h).isNone) = none := by
    rw [List.find?_eq_none]
    intro x hx
    have := h x hx
    simp [Option.isSome_iff_ne_none] at this ⊢
    exact this
  rw [this]

/-- An instruction that is new goes through its checks. -/
theorem State.retryOr_new (s : State) (e : Nat) (f : Cmd → State → State) (k : Out) (ready : Bool) (h : s.slot.captured = none) :
    s.retryOr e f k ready = k := by simp [State.retryOr, h]

/-- One that waits is tried again with what it has captured. -/
theorem State.retryOr_waits (s : State) (e : Nat) (f : Cmd → State → State) (k : Out) (ready : Bool) {m : Cmd}
    (h : s.slot.captured = some m) :
    s.retryOr e f k ready = s.issue { m with id := s.nextCmd } (f { m with id := s.nextCmd }) ready := by
  simp [State.retryOr, State.capturedCmd, h]

/-- Issue: the one place that says what it does. -/
theorem State.issue_eq (s : State) (m : Cmd) (f : State → State) (ready : Bool) :
    s.issue m f ready = .next (if ready && s.canIssue m.slot m.eng.toNat m.locks then
      f { s with cmds := (s.cmds.filter fun k => !(k.slot = m.slot && k.eng.toNat = m.eng.toNat && k.stopped)) ++ [m],
                 nextCmd := s.nextCmd + 1, slot := s.slot.countCmd m.eng.toNat 1 0 }
    else { s with slot := { s.slot with hold := true, captured := some m } }) := by
  unfold State.issue
  by_cases h : (ready && s.canIssue m.slot m.eng.toNat m.locks) = true
  · rw [if_neg (by simpa using h), if_pos h]; rfl
  · rw [if_pos (by cases ready <;> simp_all), if_neg h]; rfl

/-- A meaning that answers with `issue` issues the command. -/
theorem State.issues_of (s : State) (i : Instr) (m : Cmd) (f g : State → State) (ready : Bool) (h : exec i s = s.issue m g ready)
    (hfg : ∀ z : State, z.slot = s.slot.countCmd m.eng.toNat 1 0 → z.core = s.core → z.slotNo = s.slotNo → g z = f z) :
    s.Issues i m f ready := by
  unfold State.Issues
  rw [h, State.issue_eq]
  simp only []
  by_cases hc : (ready && s.canIssue m.slot m.eng.toNat m.locks) = true
  · rw [if_pos hc, if_pos hc]
    exact congrArg _ (hfg _ rfl rfl rfl)
  · rw [if_neg hc, if_neg hc]

/-! ### Results of a step -/

@[simp] theorem Res.step_ok {α : Type} (a : α) (s s0 : State) (m : Cmd) (f : α → State → Out) :
    (Res.ok a s).step s0 m f = f a s := rfl
@[simp] theorem Res.step_wait {α : Type} (s s0 : State) (m : Cmd) (f : α → State → Out) :
    (Res.wait s : Res α).step s0 m f = .next (s0.keepWaits s) := rfl
@[simp] theorem Res.bind_ok {α β : Type} (a : α) (s : State) (f : α → State → Res β) : (Res.ok a s).bind f = f a s := rfl
@[simp] theorem Res.out_ok {α : Type} (a : α) (s : State) (f : α → State → Out) : (Res.ok a s).out f = f a s := rfl
@[simp] theorem Res.orWait_ok {α : Type} (a : α) (s s0 : State) (f : α → State → Out) : (Res.ok a s).orWait s0 f = f a s := rfl

theorem State.withCmd_eq (s : State) (e : Nat) (f : Cmd → Out) {m : Cmd} (h : s.cmd s.arg.c = some m)
    (he : m.eng.toNat = e) (hf : m.finished = false) (ht : s.outOfTurn (s.ctxCmd m) = false) : s.withCmd e f = f m := by
  simp [State.withCmd, State.onCmd, State.inTurn, h, he, hf, ht]

end Sys2Proof.Machine
end

