-- ==== Sys2Proof/Laws/State.lean ====
section
/-! SUPPORT. One lemma per field of the state and update of it. -/

namespace Sys2Proof.Machine

@[simp] theorem State.upd_slot (s : State) (f : Slot → Slot) : (s.upd f).slot = f s.slot := rfl
@[simp] theorem State.upd_slotNo (s : State) (f : Slot → Slot) : (s.upd f).slotNo = s.slotNo := rfl
@[simp] theorem State.upd_core (s : State) (f : Slot → Slot) : (s.upd f).core = s.core := rfl
@[simp] theorem State.upd_others (s : State) (f : Slot → Slot) : (s.upd f).others = s.others := rfl
@[simp] theorem State.upd_otherCores (s : State) (f : Slot → Slot) : (s.upd f).otherCores = s.otherCores := rfl
@[simp] theorem State.upd_mem (s : State) (f : Slot → Slot) : (s.upd f).mem = s.mem := rfl
@[simp] theorem State.upd_homes (s : State) (f : Slot → Slot) : (s.upd f).homes = s.homes := rfl
@[simp] theorem State.upd_slices (s : State) (f : Slot → Slot) : (s.upd f).slices = s.slices := rfl
@[simp] theorem State.upd_marks (s : State) (f : Slot → Slot) : (s.upd f).marks = s.marks := rfl
@[simp] theorem State.upd_deferred (s : State) (f : Slot → Slot) : (s.upd f).deferred = s.deferred := rfl
@[simp] theorem State.upd_poison (s : State) (f : Slot → Slot) : (s.upd f).poison = s.poison := rfl
@[simp] theorem State.upd_ranges (s : State) (f : Slot → Slot) : (s.upd f).ranges = s.ranges := rfl
@[simp] theorem State.upd_cells (s : State) (f : Slot → Slot) : (s.upd f).cells = s.cells := rfl
@[simp] theorem State.upd_recycles (s : State) (f : Slot → Slot) : (s.upd f).recycles = s.recycles := rfl
@[simp] theorem State.upd_regions (s : State) (f : Slot → Slot) : (s.upd f).regions = s.regions := rfl
@[simp] theorem State.upd_queues (s : State) (f : Slot → Slot) : (s.upd f).queues = s.queues := rfl
@[simp] theorem State.upd_refused (s : State) (f : Slot → Slot) : (s.upd f).refused = s.refused := rfl
@[simp] theorem State.upd_teams (s : State) (f : Slot → Slot) : (s.upd f).teams = s.teams := rfl
@[simp] theorem State.upd_shapes (s : State) (f : Slot → Slot) : (s.upd f).shapes = s.shapes := rfl
@[simp] theorem State.upd_cmds (s : State) (f : Slot → Slot) : (s.upd f).cmds = s.cmds := rfl
@[simp] theorem State.upd_nextCmd (s : State) (f : Slot → Slot) : (s.upd f).nextCmd = s.nextCmd := rfl
@[simp] theorem State.upd_mcs (s : State) (f : Slot → Slot) : (s.upd f).mcs = s.mcs := rfl
@[simp] theorem State.upd_mcprog (s : State) (f : Slot → Slot) : (s.upd f).mcprog = s.mcprog := rfl
@[simp] theorem State.upd_dies (s : State) (f : Slot → Slot) : (s.upd f).dies = s.dies := rfl
@[simp] theorem State.upd_mt (s : State) (f : Slot → Slot) : (s.upd f).mt = s.mt := rfl
@[simp] theorem State.upd_nasum (s : State) (f : Slot → Slot) : (s.upd f).nasum = s.nasum := rfl
@[simp] theorem State.upd_safe (s : State) (f : Slot → Slot) : (s.upd f).safe = s.safe := rfl
@[simp] theorem State.upd_outbox (s : State) (f : Slot → Slot) : (s.upd f).outbox = s.outbox := rfl
@[simp] theorem State.upd_bisnp (s : State) (f : Slot → Slot) : (s.upd f).bisnp = s.bisnp := rfl
@[simp] theorem State.upd_fills (s : State) (f : Slot → Slot) : (s.upd f).fills = s.fills := rfl
@[simp] theorem State.upd_balAt (s : State) (f : Slot → Slot) : (s.upd f).balAt = s.balAt := rfl
@[simp] theorem State.upd_migrations (s : State) (f : Slot → Slot) : (s.upd f).migrations = s.migrations := rfl
@[simp] theorem State.upd_inbox (s : State) (f : Slot → Slot) : (s.upd f).inbox = s.inbox := rfl
@[simp] theorem State.upd_arg (s : State) (f : Slot → Slot) : (s.upd f).arg = s.arg := rfl
@[simp] theorem State.upd_drawn (s : State) (f : Slot → Slot) : (s.upd f).drawn = s.drawn := rfl
@[simp] theorem State.upd_cycle (s : State) (f : Slot → Slot) : (s.upd f).cycle = s.cycle := rfl

@[simp] theorem State.updCore_core (s : State) (f : Core → Core) : (s.updCore f).core = f s.core := rfl
@[simp] theorem State.updCore_slotNo (s : State) (f : Core → Core) : (s.updCore f).slotNo = s.slotNo := rfl
@[simp] theorem State.updCore_slot (s : State) (f : Core → Core) : (s.updCore f).slot = s.slot := rfl
@[simp] theorem State.updCore_others (s : State) (f : Core → Core) : (s.updCore f).others = s.others := rfl
@[simp] theorem State.updCore_otherCores (s : State) (f : Core → Core) : (s.updCore f).otherCores = s.otherCores := rfl
@[simp] theorem State.updCore_mem (s : State) (f : Core → Core) : (s.updCore f).mem = s.mem := rfl
@[simp] theorem State.updCore_homes (s : State) (f : Core → Core) : (s.updCore f).homes = s.homes := rfl
@[simp] theorem State.updCore_slices (s : State) (f : Core → Core) : (s.updCore f).slices = s.slices := rfl
@[simp] theorem State.updCore_marks (s : State) (f : Core → Core) : (s.updCore f).marks = s.marks := rfl
@[simp] theorem State.updCore_deferred (s : State) (f : Core → Core) : (s.updCore f).deferred = s.deferred := rfl
@[simp] theorem State.updCore_poison (s : State) (f : Core → Core) : (s.updCore f).poison = s.poison := rfl
@[simp] theorem State.updCore_ranges (s : State) (f : Core → Core) : (s.updCore f).ranges = s.ranges := rfl
@[simp] theorem State.updCore_cells (s : State) (f : Core → Core) : (s.updCore f).cells = s.cells := rfl
@[simp] theorem State.updCore_recycles (s : State) (f : Core → Core) : (s.updCore f).recycles = s.recycles := rfl
@[simp] theorem State.updCore_regions (s : State) (f : Core → Core) : (s.updCore f).regions = s.regions := rfl
@[simp] theorem State.updCore_queues (s : State) (f : Core → Core) : (s.updCore f).queues = s.queues := rfl
@[simp] theorem State.updCore_refused (s : State) (f : Core → Core) : (s.updCore f).refused = s.refused := rfl
@[simp] theorem State.updCore_teams (s : State) (f : Core → Core) : (s.updCore f).teams = s.teams := rfl
@[simp] theorem State.updCore_shapes (s : State) (f : Core → Core) : (s.updCore f).shapes = s.shapes := rfl
@[simp] theorem State.updCore_cmds (s : State) (f : Core → Core) : (s.updCore f).cmds = s.cmds := rfl
@[simp] theorem State.updCore_nextCmd (s : State) (f : Core → Core) : (s.updCore f).nextCmd = s.nextCmd := rfl
@[simp] theorem State.updCore_mcs (s : State) (f : Core → Core) : (s.updCore f).mcs = s.mcs := rfl
@[simp] theorem State.updCore_mcprog (s : State) (f : Core → Core) : (s.updCore f).mcprog = s.mcprog := rfl
@[simp] theorem State.updCore_dies (s : State) (f : Core → Core) : (s.updCore f).dies = s.dies := rfl
@[simp] theorem State.updCore_mt (s : State) (f : Core → Core) : (s.updCore f).mt = s.mt := rfl
@[simp] theorem State.updCore_nasum (s : State) (f : Core → Core) : (s.updCore f).nasum = s.nasum := rfl
@[simp] theorem State.updCore_safe (s : State) (f : Core → Core) : (s.updCore f).safe = s.safe := rfl
@[simp] theorem State.updCore_outbox (s : State) (f : Core → Core) : (s.updCore f).outbox = s.outbox := rfl
@[simp] theorem State.updCore_bisnp (s : State) (f : Core → Core) : (s.updCore f).bisnp = s.bisnp := rfl
@[simp] theorem State.updCore_fills (s : State) (f : Core → Core) : (s.updCore f).fills = s.fills := rfl
@[simp] theorem State.updCore_balAt (s : State) (f : Core → Core) : (s.updCore f).balAt = s.balAt := rfl
@[simp] theorem State.updCore_migrations (s : State) (f : Core → Core) : (s.updCore f).migrations = s.migrations := rfl
@[simp] theorem State.updCore_inbox (s : State) (f : Core → Core) : (s.updCore f).inbox = s.inbox := rfl
@[simp] theorem State.updCore_arg (s : State) (f : Core → Core) : (s.updCore f).arg = s.arg := rfl
@[simp] theorem State.updCore_drawn (s : State) (f : Core → Core) : (s.updCore f).drawn = s.drawn := rfl
@[simp] theorem State.updCore_cycle (s : State) (f : Core → Core) : (s.updCore f).cycle = s.cycle := rfl

@[simp] theorem State.setDie_slotNo (s : State) (d : DieNo) (v : Die) : (s.setDie d v).slotNo = s.slotNo := rfl
@[simp] theorem State.setDie_slot (s : State) (d : DieNo) (v : Die) : (s.setDie d v).slot = s.slot := rfl
@[simp] theorem State.setDie_core (s : State) (d : DieNo) (v : Die) : (s.setDie d v).core = s.core := rfl
@[simp] theorem State.setDie_others (s : State) (d : DieNo) (v : Die) : (s.setDie d v).others = s.others := rfl
@[simp] theorem State.setDie_otherCores (s : State) (d : DieNo) (v : Die) : (s.setDie d v).otherCores = s.otherCores := rfl
@[simp] theorem State.setDie_mem (s : State) (d : DieNo) (v : Die) : (s.setDie d v).mem = s.mem := rfl
@[simp] theorem State.setDie_homes (s : State) (d : DieNo) (v : Die) : (s.setDie d v).homes = s.homes := rfl
@[simp] theorem State.setDie_slices (s : State) (d : DieNo) (v : Die) : (s.setDie d v).slices = s.slices := rfl
@[simp] theorem State.setDie_marks (s : State) (d : DieNo) (v : Die) : (s.setDie d v).marks = s.marks := rfl
@[simp] theorem State.setDie_deferred (s : State) (d : DieNo) (v : Die) : (s.setDie d v).deferred = s.deferred := rfl
@[simp] theorem State.setDie_poison (s : State) (d : DieNo) (v : Die) : (s.setDie d v).poison = s.poison := rfl
@[simp] theorem State.setDie_ranges (s : State) (d : DieNo) (v : Die) : (s.setDie d v).ranges = s.ranges := rfl
@[simp] theorem State.setDie_cells (s : State) (d : DieNo) (v : Die) : (s.setDie d v).cells = s.cells := rfl
@[simp] theorem State.setDie_recycles (s : State) (d : DieNo) (v : Die) : (s.setDie d v).recycles = s.recycles := rfl
@[simp] theorem State.setDie_regions (s : State) (d : DieNo) (v : Die) : (s.setDie d v).regions = s.regions := rfl
@[simp] theorem State.setDie_queues (s : State) (d : DieNo) (v : Die) : (s.setDie d v).queues = s.queues := rfl
@[simp] theorem State.setDie_refused (s : State) (d : DieNo) (v : Die) : (s.setDie d v).refused = s.refused := rfl
@[simp] theorem State.setDie_teams (s : State) (d : DieNo) (v : Die) : (s.setDie d v).teams = s.teams := rfl
@[simp] theorem State.setDie_shapes (s : State) (d : DieNo) (v : Die) : (s.setDie d v).shapes = s.shapes := rfl
@[simp] theorem State.setDie_cmds (s : State) (d : DieNo) (v : Die) : (s.setDie d v).cmds = s.cmds := rfl
@[simp] theorem State.setDie_nextCmd (s : State) (d : DieNo) (v : Die) : (s.setDie d v).nextCmd = s.nextCmd := rfl
@[simp] theorem State.setDie_mcs (s : State) (d : DieNo) (v : Die) : (s.setDie d v).mcs = s.mcs := rfl
@[simp] theorem State.setDie_mcprog (s : State) (d : DieNo) (v : Die) : (s.setDie d v).mcprog = s.mcprog := rfl
@[simp] theorem State.setDie_mt (s : State) (d : DieNo) (v : Die) : (s.setDie d v).mt = s.mt := rfl
@[simp] theorem State.setDie_nasum (s : State) (d : DieNo) (v : Die) : (s.setDie d v).nasum = s.nasum := rfl
@[simp] theorem State.setDie_safe (s : State) (d : DieNo) (v : Die) : (s.setDie d v).safe = s.safe := rfl
@[simp] theorem State.setDie_outbox (s : State) (d : DieNo) (v : Die) : (s.setDie d v).outbox = s.outbox := rfl
@[simp] theorem State.setDie_bisnp (s : State) (d : DieNo) (v : Die) : (s.setDie d v).bisnp = s.bisnp := rfl
@[simp] theorem State.setDie_fills (s : State) (d : DieNo) (v : Die) : (s.setDie d v).fills = s.fills := rfl
@[simp] theorem State.setDie_balAt (s : State) (d : DieNo) (v : Die) : (s.setDie d v).balAt = s.balAt := rfl
@[simp] theorem State.setDie_migrations (s : State) (d : DieNo) (v : Die) : (s.setDie d v).migrations = s.migrations := rfl
@[simp] theorem State.setDie_inbox (s : State) (d : DieNo) (v : Die) : (s.setDie d v).inbox = s.inbox := rfl
@[simp] theorem State.setDie_arg (s : State) (d : DieNo) (v : Die) : (s.setDie d v).arg = s.arg := rfl
@[simp] theorem State.setDie_drawn (s : State) (d : DieNo) (v : Die) : (s.setDie d v).drawn = s.drawn := rfl
@[simp] theorem State.setDie_cycle (s : State) (d : DieNo) (v : Die) : (s.setDie d v).cycle = s.cycle := rfl

@[simp] theorem State.setHome_slotNo (s : State) (l : Nat) (h : HomeLine) : (s.setHome l h).slotNo = s.slotNo := rfl
@[simp] theorem State.setHome_slot (s : State) (l : Nat) (h : HomeLine) : (s.setHome l h).slot = s.slot := rfl
@[simp] theorem State.setHome_core (s : State) (l : Nat) (h : HomeLine) : (s.setHome l h).core = s.core := rfl
@[simp] theorem State.setHome_others (s : State) (l : Nat) (h : HomeLine) : (s.setHome l h).others = s.others := rfl
@[simp] theorem State.setHome_otherCores (s : State) (l : Nat) (h : HomeLine) : (s.setHome l h).otherCores = s.otherCores := rfl
@[simp] theorem State.setHome_mem (s : State) (l : Nat) (h : HomeLine) : (s.setHome l h).mem = s.mem := rfl
@[simp] theorem State.setHome_slices (s : State) (l : Nat) (h : HomeLine) : (s.setHome l h).slices = s.slices := rfl
@[simp] theorem State.setHome_marks (s : State) (l : Nat) (h : HomeLine) : (s.setHome l h).marks = s.marks := rfl
@[simp] theorem State.setHome_deferred (s : State) (l : Nat) (h : HomeLine) : (s.setHome l h).deferred = s.deferred := rfl
@[simp] theorem State.setHome_poison (s : State) (l : Nat) (h : HomeLine) : (s.setHome l h).poison = s.poison := rfl
@[simp] theorem State.setHome_ranges (s : State) (l : Nat) (h : HomeLine) : (s.setHome l h).ranges = s.ranges := rfl
@[simp] theorem State.setHome_cells (s : State) (l : Nat) (h : HomeLine) : (s.setHome l h).cells = s.cells := rfl
@[simp] theorem State.setHome_recycles (s : State) (l : Nat) (h : HomeLine) : (s.setHome l h).recycles = s.recycles := rfl
@[simp] theorem State.setHome_regions (s : State) (l : Nat) (h : HomeLine) : (s.setHome l h).regions = s.regions := rfl
@[simp] theorem State.setHome_queues (s : State) (l : Nat) (h : HomeLine) : (s.setHome l h).queues = s.queues := rfl
@[simp] theorem State.setHome_refused (s : State) (l : Nat) (h : HomeLine) : (s.setHome l h).refused = s.refused := rfl
@[simp] theorem State.setHome_teams (s : State) (l : Nat) (h : HomeLine) : (s.setHome l h).teams = s.teams := rfl
@[simp] theorem State.setHome_shapes (s : State) (l : Nat) (h : HomeLine) : (s.setHome l h).shapes = s.shapes := rfl
@[simp] theorem State.setHome_cmds (s : State) (l : Nat) (h : HomeLine) : (s.setHome l h).cmds = s.cmds := rfl
@[simp] theorem State.setHome_nextCmd (s : State) (l : Nat) (h : HomeLine) : (s.setHome l h).nextCmd = s.nextCmd := rfl
@[simp] theorem State.setHome_mcs (s : State) (l : Nat) (h : HomeLine) : (s.setHome l h).mcs = s.mcs := rfl
@[simp] theorem State.setHome_mcprog (s : State) (l : Nat) (h : HomeLine) : (s.setHome l h).mcprog = s.mcprog := rfl
@[simp] theorem State.setHome_dies (s : State) (l : Nat) (h : HomeLine) : (s.setHome l h).dies = s.dies := rfl
@[simp] theorem State.setHome_mt (s : State) (l : Nat) (h : HomeLine) : (s.setHome l h).mt = s.mt := rfl
@[simp] theorem State.setHome_nasum (s : State) (l : Nat) (h : HomeLine) : (s.setHome l h).nasum = s.nasum := rfl
@[simp] theorem State.setHome_safe (s : State) (l : Nat) (h : HomeLine) : (s.setHome l h).safe = s.safe := rfl
@[simp] theorem State.setHome_outbox (s : State) (l : Nat) (h : HomeLine) : (s.setHome l h).outbox = s.outbox := rfl
@[simp] theorem State.setHome_bisnp (s : State) (l : Nat) (h : HomeLine) : (s.setHome l h).bisnp = s.bisnp := rfl
@[simp] theorem State.setHome_fills (s : State) (l : Nat) (h : HomeLine) : (s.setHome l h).fills = s.fills := rfl
@[simp] theorem State.setHome_balAt (s : State) (l : Nat) (h : HomeLine) : (s.setHome l h).balAt = s.balAt := rfl
@[simp] theorem State.setHome_migrations (s : State) (l : Nat) (h : HomeLine) : (s.setHome l h).migrations = s.migrations := rfl
@[simp] theorem State.setHome_inbox (s : State) (l : Nat) (h : HomeLine) : (s.setHome l h).inbox = s.inbox := rfl
@[simp] theorem State.setHome_arg (s : State) (l : Nat) (h : HomeLine) : (s.setHome l h).arg = s.arg := rfl
@[simp] theorem State.setHome_drawn (s : State) (l : Nat) (h : HomeLine) : (s.setHome l h).drawn = s.drawn := rfl
@[simp] theorem State.setHome_cycle (s : State) (l : Nat) (h : HomeLine) : (s.setHome l h).cycle = s.cycle := rfl

@[simp] theorem State.post_slotNo (s : State) (i : Instr) (a : EvArgs) : (s.post i a).slotNo = s.slotNo := rfl
@[simp] theorem State.post_slot (s : State) (i : Instr) (a : EvArgs) : (s.post i a).slot = s.slot := rfl
@[simp] theorem State.post_core (s : State) (i : Instr) (a : EvArgs) : (s.post i a).core = s.core := rfl
@[simp] theorem State.post_others (s : State) (i : Instr) (a : EvArgs) : (s.post i a).others = s.others := rfl
@[simp] theorem State.post_otherCores (s : State) (i : Instr) (a : EvArgs) : (s.post i a).otherCores = s.otherCores := rfl
@[simp] theorem State.post_mem (s : State) (i : Instr) (a : EvArgs) : (s.post i a).mem = s.mem := rfl
@[simp] theorem State.post_homes (s : State) (i : Instr) (a : EvArgs) : (s.post i a).homes = s.homes := rfl
@[simp] theorem State.post_slices (s : State) (i : Instr) (a : EvArgs) : (s.post i a).slices = s.slices := rfl
@[simp] theorem State.post_marks (s : State) (i : Instr) (a : EvArgs) : (s.post i a).marks = s.marks := rfl
@[simp] theorem State.post_deferred (s : State) (i : Instr) (a : EvArgs) : (s.post i a).deferred = s.deferred := rfl
@[simp] theorem State.post_poison (s : State) (i : Instr) (a : EvArgs) : (s.post i a).poison = s.poison := rfl
@[simp] theorem State.post_ranges (s : State) (i : Instr) (a : EvArgs) : (s.post i a).ranges = s.ranges := rfl
@[simp] theorem State.post_cells (s : State) (i : Instr) (a : EvArgs) : (s.post i a).cells = s.cells := rfl
@[simp] theorem State.post_recycles (s : State) (i : Instr) (a : EvArgs) : (s.post i a).recycles = s.recycles := rfl
@[simp] theorem State.post_regions (s : State) (i : Instr) (a : EvArgs) : (s.post i a).regions = s.regions := rfl
@[simp] theorem State.post_queues (s : State) (i : Instr) (a : EvArgs) : (s.post i a).queues = s.queues := rfl
@[simp] theorem State.post_refused (s : State) (i : Instr) (a : EvArgs) : (s.post i a).refused = s.refused := rfl
@[simp] theorem State.post_teams (s : State) (i : Instr) (a : EvArgs) : (s.post i a).teams = s.teams := rfl
@[simp] theorem State.post_shapes (s : State) (i : Instr) (a : EvArgs) : (s.post i a).shapes = s.shapes := rfl
@[simp] theorem State.post_cmds (s : State) (i : Instr) (a : EvArgs) : (s.post i a).cmds = s.cmds := rfl
@[simp] theorem State.post_nextCmd (s : State) (i : Instr) (a : EvArgs) : (s.post i a).nextCmd = s.nextCmd := rfl
@[simp] theorem State.post_mcs (s : State) (i : Instr) (a : EvArgs) : (s.post i a).mcs = s.mcs := rfl
@[simp] theorem State.post_mcprog (s : State) (i : Instr) (a : EvArgs) : (s.post i a).mcprog = s.mcprog := rfl
@[simp] theorem State.post_dies (s : State) (i : Instr) (a : EvArgs) : (s.post i a).dies = s.dies := rfl
@[simp] theorem State.post_mt (s : State) (i : Instr) (a : EvArgs) : (s.post i a).mt = s.mt := rfl
@[simp] theorem State.post_nasum (s : State) (i : Instr) (a : EvArgs) : (s.post i a).nasum = s.nasum := rfl
@[simp] theorem State.post_safe (s : State) (i : Instr) (a : EvArgs) : (s.post i a).safe = s.safe := rfl
@[simp] theorem State.post_outbox (s : State) (i : Instr) (a : EvArgs) : (s.post i a).outbox = s.outbox := rfl
@[simp] theorem State.post_bisnp (s : State) (i : Instr) (a : EvArgs) : (s.post i a).bisnp = s.bisnp := rfl
@[simp] theorem State.post_fills (s : State) (i : Instr) (a : EvArgs) : (s.post i a).fills = s.fills := rfl
@[simp] theorem State.post_balAt (s : State) (i : Instr) (a : EvArgs) : (s.post i a).balAt = s.balAt := rfl
@[simp] theorem State.post_migrations (s : State) (i : Instr) (a : EvArgs) : (s.post i a).migrations = s.migrations := rfl
@[simp] theorem State.post_arg (s : State) (i : Instr) (a : EvArgs) : (s.post i a).arg = s.arg := rfl
@[simp] theorem State.post_drawn (s : State) (i : Instr) (a : EvArgs) : (s.post i a).drawn = s.drawn := rfl
@[simp] theorem State.post_cycle (s : State) (i : Instr) (a : EvArgs) : (s.post i a).cycle = s.cycle := rfl

@[simp] theorem State.send_slotNo (s : State) (m : OutMsg) : (s.send m).slotNo = s.slotNo := rfl
@[simp] theorem State.send_slot (s : State) (m : OutMsg) : (s.send m).slot = s.slot := rfl
@[simp] theorem State.send_core (s : State) (m : OutMsg) : (s.send m).core = s.core := rfl
@[simp] theorem State.send_others (s : State) (m : OutMsg) : (s.send m).others = s.others := rfl
@[simp] theorem State.send_otherCores (s : State) (m : OutMsg) : (s.send m).otherCores = s.otherCores := rfl
@[simp] theorem State.send_mem (s : State) (m : OutMsg) : (s.send m).mem = s.mem := rfl
@[simp] theorem State.send_homes (s : State) (m : OutMsg) : (s.send m).homes = s.homes := rfl
@[simp] theorem State.send_slices (s : State) (m : OutMsg) : (s.send m).slices = s.slices := rfl
@[simp] theorem State.send_marks (s : State) (m : OutMsg) : (s.send m).marks = s.marks := rfl
@[simp] theorem State.send_deferred (s : State) (m : OutMsg) : (s.send m).deferred = s.deferred := rfl
@[simp] theorem State.send_poison (s : State) (m : OutMsg) : (s.send m).poison = s.poison := rfl
@[simp] theorem State.send_ranges (s : State) (m : OutMsg) : (s.send m).ranges = s.ranges := rfl
@[simp] theorem State.send_cells (s : State) (m : OutMsg) : (s.send m).cells = s.cells := rfl
@[simp] theorem State.send_recycles (s : State) (m : OutMsg) : (s.send m).recycles = s.recycles := rfl
@[simp] theorem State.send_regions (s : State) (m : OutMsg) : (s.send m).regions = s.regions := rfl
@[simp] theorem State.send_queues (s : State) (m : OutMsg) : (s.send m).queues = s.queues := rfl
@[simp] theorem State.send_refused (s : State) (m : OutMsg) : (s.send m).refused = s.refused := rfl
@[simp] theorem State.send_teams (s : State) (m : OutMsg) : (s.send m).teams = s.teams := rfl
@[simp] theorem State.send_shapes (s : State) (m : OutMsg) : (s.send m).shapes = s.shapes := rfl
@[simp] theorem State.send_cmds (s : State) (m : OutMsg) : (s.send m).cmds = s.cmds := rfl
@[simp] theorem State.send_nextCmd (s : State) (m : OutMsg) : (s.send m).nextCmd = s.nextCmd := rfl
@[simp] theorem State.send_mcs (s : State) (m : OutMsg) : (s.send m).mcs = s.mcs := rfl
@[simp] theorem State.send_mcprog (s : State) (m : OutMsg) : (s.send m).mcprog = s.mcprog := rfl
@[simp] theorem State.send_dies (s : State) (m : OutMsg) : (s.send m).dies = s.dies := rfl
@[simp] theorem State.send_mt (s : State) (m : OutMsg) : (s.send m).mt = s.mt := rfl
@[simp] theorem State.send_nasum (s : State) (m : OutMsg) : (s.send m).nasum = s.nasum := rfl
@[simp] theorem State.send_safe (s : State) (m : OutMsg) : (s.send m).safe = s.safe := rfl
@[simp] theorem State.send_bisnp (s : State) (m : OutMsg) : (s.send m).bisnp = s.bisnp := rfl
@[simp] theorem State.send_fills (s : State) (m : OutMsg) : (s.send m).fills = s.fills := rfl
@[simp] theorem State.send_balAt (s : State) (m : OutMsg) : (s.send m).balAt = s.balAt := rfl
@[simp] theorem State.send_migrations (s : State) (m : OutMsg) : (s.send m).migrations = s.migrations := rfl
@[simp] theorem State.send_inbox (s : State) (m : OutMsg) : (s.send m).inbox = s.inbox := rfl
@[simp] theorem State.send_arg (s : State) (m : OutMsg) : (s.send m).arg = s.arg := rfl
@[simp] theorem State.send_drawn (s : State) (m : OutMsg) : (s.send m).drawn = s.drawn := rfl
@[simp] theorem State.send_cycle (s : State) (m : OutMsg) : (s.send m).cycle = s.cycle := rfl

@[simp] theorem State.jump_slotNo (s : State) (p : BitVec 56) : (s.jump p).slotNo = s.slotNo := rfl
@[simp] theorem State.jump_core (s : State) (p : BitVec 56) : (s.jump p).core = s.core := rfl
@[simp] theorem State.jump_others (s : State) (p : BitVec 56) : (s.jump p).others = s.others := rfl
@[simp] theorem State.jump_otherCores (s : State) (p : BitVec 56) : (s.jump p).otherCores = s.otherCores := rfl
@[simp] theorem State.jump_mem (s : State) (p : BitVec 56) : (s.jump p).mem = s.mem := rfl
@[simp] theorem State.jump_homes (s : State) (p : BitVec 56) : (s.jump p).homes = s.homes := rfl
@[simp] theorem State.jump_slices (s : State) (p : BitVec 56) : (s.jump p).slices = s.slices := rfl
@[simp] theorem State.jump_marks (s : State) (p : BitVec 56) : (s.jump p).marks = s.marks := rfl
@[simp] theorem State.jump_deferred (s : State) (p : BitVec 56) : (s.jump p).deferred = s.deferred := rfl
@[simp] theorem State.jump_poison (s : State) (p : BitVec 56) : (s.jump p).poison = s.poison := rfl
@[simp] theorem State.jump_ranges (s : State) (p : BitVec 56) : (s.jump p).ranges = s.ranges := rfl
@[simp] theorem State.jump_cells (s : State) (p : BitVec 56) : (s.jump p).cells = s.cells := rfl
@[simp] theorem State.jump_recycles (s : State) (p : BitVec 56) : (s.jump p).recycles = s.recycles := rfl
@[simp] theorem State.jump_regions (s : State) (p : BitVec 56) : (s.jump p).regions = s.regions := rfl
@[simp] theorem State.jump_queues (s : State) (p : BitVec 56) : (s.jump p).queues = s.queues := rfl
@[simp] theorem State.jump_refused (s : State) (p : BitVec 56) : (s.jump p).refused = s.refused := rfl
@[simp] theorem State.jump_teams (s : State) (p : BitVec 56) : (s.jump p).teams = s.teams := rfl
@[simp] theorem State.jump_shapes (s : State) (p : BitVec 56) : (s.jump p).shapes = s.shapes := rfl
@[simp] theorem State.jump_cmds (s : State) (p : BitVec 56) : (s.jump p).cmds = s.cmds := rfl
@[simp] theorem State.jump_nextCmd (s : State) (p : BitVec 56) : (s.jump p).nextCmd = s.nextCmd := rfl
@[simp] theorem State.jump_mcs (s : State) (p : BitVec 56) : (s.jump p).mcs = s.mcs := rfl
@[simp] theorem State.jump_mcprog (s : State) (p : BitVec 56) : (s.jump p).mcprog = s.mcprog := rfl
@[simp] theorem State.jump_dies (s : State) (p : BitVec 56) : (s.jump p).dies = s.dies := rfl
@[simp] theorem State.jump_mt (s : State) (p : BitVec 56) : (s.jump p).mt = s.mt := rfl
@[simp] theorem State.jump_nasum (s : State) (p : BitVec 56) : (s.jump p).nasum = s.nasum := rfl
@[simp] theorem State.jump_safe (s : State) (p : BitVec 56) : (s.jump p).safe = s.safe := rfl
@[simp] theorem State.jump_outbox (s : State) (p : BitVec 56) : (s.jump p).outbox = s.outbox := rfl
@[simp] theorem State.jump_bisnp (s : State) (p : BitVec 56) : (s.jump p).bisnp = s.bisnp := rfl
@[simp] theorem State.jump_fills (s : State) (p : BitVec 56) : (s.jump p).fills = s.fills := rfl
@[simp] theorem State.jump_balAt (s : State) (p : BitVec 56) : (s.jump p).balAt = s.balAt := rfl
@[simp] theorem State.jump_migrations (s : State) (p : BitVec 56) : (s.jump p).migrations = s.migrations := rfl
@[simp] theorem State.jump_inbox (s : State) (p : BitVec 56) : (s.jump p).inbox = s.inbox := rfl
@[simp] theorem State.jump_arg (s : State) (p : BitVec 56) : (s.jump p).arg = s.arg := rfl
@[simp] theorem State.jump_drawn (s : State) (p : BitVec 56) : (s.jump p).drawn = s.drawn := rfl
@[simp] theorem State.jump_cycle (s : State) (p : BitVec 56) : (s.jump p).cycle = s.cycle := rfl

@[simp] theorem State.setFlags_slotNo (s : State) (f : BitVec 3) : (s.setFlags f).slotNo = s.slotNo := rfl
@[simp] theorem State.setFlags_core (s : State) (f : BitVec 3) : (s.setFlags f).core = s.core := rfl
@[simp] theorem State.setFlags_others (s : State) (f : BitVec 3) : (s.setFlags f).others = s.others := rfl
@[simp] theorem State.setFlags_otherCores (s : State) (f : BitVec 3) : (s.setFlags f).otherCores = s.otherCores := rfl
@[simp] theorem State.setFlags_mem (s : State) (f : BitVec 3) : (s.setFlags f).mem = s.mem := rfl
@[simp] theorem State.setFlags_homes (s : State) (f : BitVec 3) : (s.setFlags f).homes = s.homes := rfl
@[simp] theorem State.setFlags_slices (s : State) (f : BitVec 3) : (s.setFlags f).slices = s.slices := rfl
@[simp] theorem State.setFlags_marks (s : State) (f : BitVec 3) : (s.setFlags f).marks = s.marks := rfl
@[simp] theorem State.setFlags_deferred (s : State) (f : BitVec 3) : (s.setFlags f).deferred = s.deferred := rfl
@[simp] theorem State.setFlags_poison (s : State) (f : BitVec 3) : (s.setFlags f).poison = s.poison := rfl
@[simp] theorem State.setFlags_ranges (s : State) (f : BitVec 3) : (s.setFlags f).ranges = s.ranges := rfl
@[simp] theorem State.setFlags_cells (s : State) (f : BitVec 3) : (s.setFlags f).cells = s.cells := rfl
@[simp] theorem State.setFlags_recycles (s : State) (f : BitVec 3) : (s.setFlags f).recycles = s.recycles := rfl
@[simp] theorem State.setFlags_regions (s : State) (f : BitVec 3) : (s.setFlags f).regions = s.regions := rfl
@[simp] theorem State.setFlags_queues (s : State) (f : BitVec 3) : (s.setFlags f).queues = s.queues := rfl
@[simp] theorem State.setFlags_refused (s : State) (f : BitVec 3) : (s.setFlags f).refused = s.refused := rfl
@[simp] theorem State.setFlags_teams (s : State) (f : BitVec 3) : (s.setFlags f).teams = s.teams := rfl
@[simp] theorem State.setFlags_shapes (s : State) (f : BitVec 3) : (s.setFlags f).shapes = s.shapes := rfl
@[simp] theorem State.setFlags_cmds (s : State) (f : BitVec 3) : (s.setFlags f).cmds = s.cmds := rfl
@[simp] theorem State.setFlags_nextCmd (s : State) (f : BitVec 3) : (s.setFlags f).nextCmd = s.nextCmd := rfl
@[simp] theorem State.setFlags_mcs (s : State) (f : BitVec 3) : (s.setFlags f).mcs = s.mcs := rfl
@[simp] theorem State.setFlags_mcprog (s : State) (f : BitVec 3) : (s.setFlags f).mcprog = s.mcprog := rfl
@[simp] theorem State.setFlags_dies (s : State) (f : BitVec 3) : (s.setFlags f).dies = s.dies := rfl
@[simp] theorem State.setFlags_mt (s : State) (f : BitVec 3) : (s.setFlags f).mt = s.mt := rfl
@[simp] theorem State.setFlags_nasum (s : State) (f : BitVec 3) : (s.setFlags f).nasum = s.nasum := rfl
@[simp] theorem State.setFlags_safe (s : State) (f : BitVec 3) : (s.setFlags f).safe = s.safe := rfl
@[simp] theorem State.setFlags_outbox (s : State) (f : BitVec 3) : (s.setFlags f).outbox = s.outbox := rfl
@[simp] theorem State.setFlags_bisnp (s : State) (f : BitVec 3) : (s.setFlags f).bisnp = s.bisnp := rfl
@[simp] theorem State.setFlags_fills (s : State) (f : BitVec 3) : (s.setFlags f).fills = s.fills := rfl
@[simp] theorem State.setFlags_balAt (s : State) (f : BitVec 3) : (s.setFlags f).balAt = s.balAt := rfl
@[simp] theorem State.setFlags_migrations (s : State) (f : BitVec 3) : (s.setFlags f).migrations = s.migrations := rfl
@[simp] theorem State.setFlags_inbox (s : State) (f : BitVec 3) : (s.setFlags f).inbox = s.inbox := rfl
@[simp] theorem State.setFlags_arg (s : State) (f : BitVec 3) : (s.setFlags f).arg = s.arg := rfl
@[simp] theorem State.setFlags_drawn (s : State) (f : BitVec 3) : (s.setFlags f).drawn = s.drawn := rfl
@[simp] theorem State.setFlags_cycle (s : State) (f : BitVec 3) : (s.setFlags f).cycle = s.cycle := rfl

@[simp] theorem State.orFflags_slotNo (s : State) (f : BitVec 5) : (s.orFflags f).slotNo = s.slotNo := rfl
@[simp] theorem State.orFflags_core (s : State) (f : BitVec 5) : (s.orFflags f).core = s.core := rfl
@[simp] theorem State.orFflags_others (s : State) (f : BitVec 5) : (s.orFflags f).others = s.others := rfl
@[simp] theorem State.orFflags_otherCores (s : State) (f : BitVec 5) : (s.orFflags f).otherCores = s.otherCores := rfl
@[simp] theorem State.orFflags_mem (s : State) (f : BitVec 5) : (s.orFflags f).mem = s.mem := rfl
@[simp] theorem State.orFflags_homes (s : State) (f : BitVec 5) : (s.orFflags f).homes = s.homes := rfl
@[simp] theorem State.orFflags_slices (s : State) (f : BitVec 5) : (s.orFflags f).slices = s.slices := rfl
@[simp] theorem State.orFflags_marks (s : State) (f : BitVec 5) : (s.orFflags f).marks = s.marks := rfl
@[simp] theorem State.orFflags_deferred (s : State) (f : BitVec 5) : (s.orFflags f).deferred = s.deferred := rfl
@[simp] theorem State.orFflags_poison (s : State) (f : BitVec 5) : (s.orFflags f).poison = s.poison := rfl
@[simp] theorem State.orFflags_ranges (s : State) (f : BitVec 5) : (s.orFflags f).ranges = s.ranges := rfl
@[simp] theorem State.orFflags_cells (s : State) (f : BitVec 5) : (s.orFflags f).cells = s.cells := rfl
@[simp] theorem State.orFflags_recycles (s : State) (f : BitVec 5) : (s.orFflags f).recycles = s.recycles := rfl
@[simp] theorem State.orFflags_regions (s : State) (f : BitVec 5) : (s.orFflags f).regions = s.regions := rfl
@[simp] theorem State.orFflags_queues (s : State) (f : BitVec 5) : (s.orFflags f).queues = s.queues := rfl
@[simp] theorem State.orFflags_refused (s : State) (f : BitVec 5) : (s.orFflags f).refused = s.refused := rfl
@[simp] theorem State.orFflags_teams (s : State) (f : BitVec 5) : (s.orFflags f).teams = s.teams := rfl
@[simp] theorem State.orFflags_shapes (s : State) (f : BitVec 5) : (s.orFflags f).shapes = s.shapes := rfl
@[simp] theorem State.orFflags_cmds (s : State) (f : BitVec 5) : (s.orFflags f).cmds = s.cmds := rfl
@[simp] theorem State.orFflags_nextCmd (s : State) (f : BitVec 5) : (s.orFflags f).nextCmd = s.nextCmd := rfl
@[simp] theorem State.orFflags_mcs (s : State) (f : BitVec 5) : (s.orFflags f).mcs = s.mcs := rfl
@[simp] theorem State.orFflags_mcprog (s : State) (f : BitVec 5) : (s.orFflags f).mcprog = s.mcprog := rfl
@[simp] theorem State.orFflags_dies (s : State) (f : BitVec 5) : (s.orFflags f).dies = s.dies := rfl
@[simp] theorem State.orFflags_mt (s : State) (f : BitVec 5) : (s.orFflags f).mt = s.mt := rfl
@[simp] theorem State.orFflags_nasum (s : State) (f : BitVec 5) : (s.orFflags f).nasum = s.nasum := rfl
@[simp] theorem State.orFflags_safe (s : State) (f : BitVec 5) : (s.orFflags f).safe = s.safe := rfl
@[simp] theorem State.orFflags_outbox (s : State) (f : BitVec 5) : (s.orFflags f).outbox = s.outbox := rfl
@[simp] theorem State.orFflags_bisnp (s : State) (f : BitVec 5) : (s.orFflags f).bisnp = s.bisnp := rfl
@[simp] theorem State.orFflags_fills (s : State) (f : BitVec 5) : (s.orFflags f).fills = s.fills := rfl
@[simp] theorem State.orFflags_balAt (s : State) (f : BitVec 5) : (s.orFflags f).balAt = s.balAt := rfl
@[simp] theorem State.orFflags_migrations (s : State) (f : BitVec 5) : (s.orFflags f).migrations = s.migrations := rfl
@[simp] theorem State.orFflags_inbox (s : State) (f : BitVec 5) : (s.orFflags f).inbox = s.inbox := rfl
@[simp] theorem State.orFflags_arg (s : State) (f : BitVec 5) : (s.orFflags f).arg = s.arg := rfl
@[simp] theorem State.orFflags_drawn (s : State) (f : BitVec 5) : (s.orFflags f).drawn = s.drawn := rfl
@[simp] theorem State.orFflags_cycle (s : State) (f : BitVec 5) : (s.orFflags f).cycle = s.cycle := rfl

@[simp] theorem State.parkAt_slotNo (s : State) (p : Park) : (s.parkAt p).slotNo = s.slotNo := rfl
@[simp] theorem State.parkAt_core (s : State) (p : Park) : (s.parkAt p).core = s.core := rfl
@[simp] theorem State.parkAt_others (s : State) (p : Park) : (s.parkAt p).others = s.others := rfl
@[simp] theorem State.parkAt_otherCores (s : State) (p : Park) : (s.parkAt p).otherCores = s.otherCores := rfl
@[simp] theorem State.parkAt_mem (s : State) (p : Park) : (s.parkAt p).mem = s.mem := rfl
@[simp] theorem State.parkAt_homes (s : State) (p : Park) : (s.parkAt p).homes = s.homes := rfl
@[simp] theorem State.parkAt_slices (s : State) (p : Park) : (s.parkAt p).slices = s.slices := rfl
@[simp] theorem State.parkAt_marks (s : State) (p : Park) : (s.parkAt p).marks = s.marks := rfl
@[simp] theorem State.parkAt_deferred (s : State) (p : Park) : (s.parkAt p).deferred = s.deferred := rfl
@[simp] theorem State.parkAt_poison (s : State) (p : Park) : (s.parkAt p).poison = s.poison := rfl
@[simp] theorem State.parkAt_ranges (s : State) (p : Park) : (s.parkAt p).ranges = s.ranges := rfl
@[simp] theorem State.parkAt_cells (s : State) (p : Park) : (s.parkAt p).cells = s.cells := rfl
@[simp] theorem State.parkAt_recycles (s : State) (p : Park) : (s.parkAt p).recycles = s.recycles := rfl
@[simp] theorem State.parkAt_regions (s : State) (p : Park) : (s.parkAt p).regions = s.regions := rfl
@[simp] theorem State.parkAt_queues (s : State) (p : Park) : (s.parkAt p).queues = s.queues := rfl
@[simp] theorem State.parkAt_refused (s : State) (p : Park) : (s.parkAt p).refused = s.refused := rfl
@[simp] theorem State.parkAt_teams (s : State) (p : Park) : (s.parkAt p).teams = s.teams := rfl
@[simp] theorem State.parkAt_shapes (s : State) (p : Park) : (s.parkAt p).shapes = s.shapes := rfl
@[simp] theorem State.parkAt_cmds (s : State) (p : Park) : (s.parkAt p).cmds = s.cmds := rfl
@[simp] theorem State.parkAt_nextCmd (s : State) (p : Park) : (s.parkAt p).nextCmd = s.nextCmd := rfl
@[simp] theorem State.parkAt_mcs (s : State) (p : Park) : (s.parkAt p).mcs = s.mcs := rfl
@[simp] theorem State.parkAt_mcprog (s : State) (p : Park) : (s.parkAt p).mcprog = s.mcprog := rfl
@[simp] theorem State.parkAt_dies (s : State) (p : Park) : (s.parkAt p).dies = s.dies := rfl
@[simp] theorem State.parkAt_mt (s : State) (p : Park) : (s.parkAt p).mt = s.mt := rfl
@[simp] theorem State.parkAt_nasum (s : State) (p : Park) : (s.parkAt p).nasum = s.nasum := rfl
@[simp] theorem State.parkAt_safe (s : State) (p : Park) : (s.parkAt p).safe = s.safe := rfl
@[simp] theorem State.parkAt_outbox (s : State) (p : Park) : (s.parkAt p).outbox = s.outbox := rfl
@[simp] theorem State.parkAt_bisnp (s : State) (p : Park) : (s.parkAt p).bisnp = s.bisnp := rfl
@[simp] theorem State.parkAt_fills (s : State) (p : Park) : (s.parkAt p).fills = s.fills := rfl
@[simp] theorem State.parkAt_balAt (s : State) (p : Park) : (s.parkAt p).balAt = s.balAt := rfl
@[simp] theorem State.parkAt_migrations (s : State) (p : Park) : (s.parkAt p).migrations = s.migrations := rfl
@[simp] theorem State.parkAt_inbox (s : State) (p : Park) : (s.parkAt p).inbox = s.inbox := rfl
@[simp] theorem State.parkAt_arg (s : State) (p : Park) : (s.parkAt p).arg = s.arg := rfl
@[simp] theorem State.parkAt_drawn (s : State) (p : Park) : (s.parkAt p).drawn = s.drawn := rfl
@[simp] theorem State.parkAt_cycle (s : State) (p : Park) : (s.parkAt p).cycle = s.cycle := rfl

@[simp] theorem State.updNasum_nasum (s : State) (f : Nasum → Nasum) : (s.updNasum f).nasum = f s.nasum := rfl
@[simp] theorem State.updNasum_slotNo (s : State) (f : Nasum → Nasum) : (s.updNasum f).slotNo = s.slotNo := rfl
@[simp] theorem State.updNasum_slot (s : State) (f : Nasum → Nasum) : (s.updNasum f).slot = s.slot := rfl
@[simp] theorem State.updNasum_core (s : State) (f : Nasum → Nasum) : (s.updNasum f).core = s.core := rfl
@[simp] theorem State.updNasum_others (s : State) (f : Nasum → Nasum) : (s.updNasum f).others = s.others := rfl
@[simp] theorem State.updNasum_otherCores (s : State) (f : Nasum → Nasum) : (s.updNasum f).otherCores = s.otherCores := rfl
@[simp] theorem State.updNasum_mem (s : State) (f : Nasum → Nasum) : (s.updNasum f).mem = s.mem := rfl
@[simp] theorem State.updNasum_homes (s : State) (f : Nasum → Nasum) : (s.updNasum f).homes = s.homes := rfl
@[simp] theorem State.updNasum_slices (s : State) (f : Nasum → Nasum) : (s.updNasum f).slices = s.slices := rfl
@[simp] theorem State.updNasum_marks (s : State) (f : Nasum → Nasum) : (s.updNasum f).marks = s.marks := rfl
@[simp] theorem State.updNasum_deferred (s : State) (f : Nasum → Nasum) : (s.updNasum f).deferred = s.deferred := rfl
@[simp] theorem State.updNasum_poison (s : State) (f : Nasum → Nasum) : (s.updNasum f).poison = s.poison := rfl
@[simp] theorem State.updNasum_ranges (s : State) (f : Nasum → Nasum) : (s.updNasum f).ranges = s.ranges := rfl
@[simp] theorem State.updNasum_cells (s : State) (f : Nasum → Nasum) : (s.updNasum f).cells = s.cells := rfl
@[simp] theorem State.updNasum_recycles (s : State) (f : Nasum → Nasum) : (s.updNasum f).recycles = s.recycles := rfl
@[simp] theorem State.updNasum_regions (s : State) (f : Nasum → Nasum) : (s.updNasum f).regions = s.regions := rfl
@[simp] theorem State.updNasum_queues (s : State) (f : Nasum → Nasum) : (s.updNasum f).queues = s.queues := rfl
@[simp] theorem State.updNasum_refused (s : State) (f : Nasum → Nasum) : (s.updNasum f).refused = s.refused := rfl
@[simp] theorem State.updNasum_teams (s : State) (f : Nasum → Nasum) : (s.updNasum f).teams = s.teams := rfl
@[simp] theorem State.updNasum_shapes (s : State) (f : Nasum → Nasum) : (s.updNasum f).shapes = s.shapes := rfl
@[simp] theorem State.updNasum_cmds (s : State) (f : Nasum → Nasum) : (s.updNasum f).cmds = s.cmds := rfl
@[simp] theorem State.updNasum_nextCmd (s : State) (f : Nasum → Nasum) : (s.updNasum f).nextCmd = s.nextCmd := rfl
@[simp] theorem State.updNasum_mcs (s : State) (f : Nasum → Nasum) : (s.updNasum f).mcs = s.mcs := rfl
@[simp] theorem State.updNasum_mcprog (s : State) (f : Nasum → Nasum) : (s.updNasum f).mcprog = s.mcprog := rfl
@[simp] theorem State.updNasum_dies (s : State) (f : Nasum → Nasum) : (s.updNasum f).dies = s.dies := rfl
@[simp] theorem State.updNasum_mt (s : State) (f : Nasum → Nasum) : (s.updNasum f).mt = s.mt := rfl
@[simp] theorem State.updNasum_safe (s : State) (f : Nasum → Nasum) : (s.updNasum f).safe = s.safe := rfl
@[simp] theorem State.updNasum_outbox (s : State) (f : Nasum → Nasum) : (s.updNasum f).outbox = s.outbox := rfl
@[simp] theorem State.updNasum_bisnp (s : State) (f : Nasum → Nasum) : (s.updNasum f).bisnp = s.bisnp := rfl
@[simp] theorem State.updNasum_fills (s : State) (f : Nasum → Nasum) : (s.updNasum f).fills = s.fills := rfl
@[simp] theorem State.updNasum_balAt (s : State) (f : Nasum → Nasum) : (s.updNasum f).balAt = s.balAt := rfl
@[simp] theorem State.updNasum_migrations (s : State) (f : Nasum → Nasum) : (s.updNasum f).migrations = s.migrations := rfl
@[simp] theorem State.updNasum_inbox (s : State) (f : Nasum → Nasum) : (s.updNasum f).inbox = s.inbox := rfl
@[simp] theorem State.updNasum_arg (s : State) (f : Nasum → Nasum) : (s.updNasum f).arg = s.arg := rfl
@[simp] theorem State.updNasum_drawn (s : State) (f : Nasum → Nasum) : (s.updNasum f).drawn = s.drawn := rfl
@[simp] theorem State.updNasum_cycle (s : State) (f : Nasum → Nasum) : (s.updNasum f).cycle = s.cycle := rfl

@[simp] theorem State.holdOn_slotNo (s : State) : (s.holdOn).slotNo = s.slotNo := rfl
@[simp] theorem State.holdOn_core (s : State) : (s.holdOn).core = s.core := rfl
@[simp] theorem State.holdOn_others (s : State) : (s.holdOn).others = s.others := rfl
@[simp] theorem State.holdOn_otherCores (s : State) : (s.holdOn).otherCores = s.otherCores := rfl
@[simp] theorem State.holdOn_mem (s : State) : (s.holdOn).mem = s.mem := rfl
@[simp] theorem State.holdOn_homes (s : State) : (s.holdOn).homes = s.homes := rfl
@[simp] theorem State.holdOn_slices (s : State) : (s.holdOn).slices = s.slices := rfl
@[simp] theorem State.holdOn_marks (s : State) : (s.holdOn).marks = s.marks := rfl
@[simp] theorem State.holdOn_deferred (s : State) : (s.holdOn).deferred = s.deferred := rfl
@[simp] theorem State.holdOn_poison (s : State) : (s.holdOn).poison = s.poison := rfl
@[simp] theorem State.holdOn_ranges (s : State) : (s.holdOn).ranges = s.ranges := rfl
@[simp] theorem State.holdOn_cells (s : State) : (s.holdOn).cells = s.cells := rfl
@[simp] theorem State.holdOn_recycles (s : State) : (s.holdOn).recycles = s.recycles := rfl
@[simp] theorem State.holdOn_regions (s : State) : (s.holdOn).regions = s.regions := rfl
@[simp] theorem State.holdOn_queues (s : State) : (s.holdOn).queues = s.queues := rfl
@[simp] theorem State.holdOn_refused (s : State) : (s.holdOn).refused = s.refused := rfl
@[simp] theorem State.holdOn_teams (s : State) : (s.holdOn).teams = s.teams := rfl
@[simp] theorem State.holdOn_shapes (s : State) : (s.holdOn).shapes = s.shapes := rfl
@[simp] theorem State.holdOn_cmds (s : State) : (s.holdOn).cmds = s.cmds := rfl
@[simp] theorem State.holdOn_nextCmd (s : State) : (s.holdOn).nextCmd = s.nextCmd := rfl
@[simp] theorem State.holdOn_mcs (s : State) : (s.holdOn).mcs = s.mcs := rfl
@[simp] theorem State.holdOn_mcprog (s : State) : (s.holdOn).mcprog = s.mcprog := rfl
@[simp] theorem State.holdOn_dies (s : State) : (s.holdOn).dies = s.dies := rfl
@[simp] theorem State.holdOn_mt (s : State) : (s.holdOn).mt = s.mt := rfl
@[simp] theorem State.holdOn_nasum (s : State) : (s.holdOn).nasum = s.nasum := rfl
@[simp] theorem State.holdOn_safe (s : State) : (s.holdOn).safe = s.safe := rfl
@[simp] theorem State.holdOn_outbox (s : State) : (s.holdOn).outbox = s.outbox := rfl
@[simp] theorem State.holdOn_bisnp (s : State) : (s.holdOn).bisnp = s.bisnp := rfl
@[simp] theorem State.holdOn_fills (s : State) : (s.holdOn).fills = s.fills := rfl
@[simp] theorem State.holdOn_balAt (s : State) : (s.holdOn).balAt = s.balAt := rfl
@[simp] theorem State.holdOn_migrations (s : State) : (s.holdOn).migrations = s.migrations := rfl
@[simp] theorem State.holdOn_inbox (s : State) : (s.holdOn).inbox = s.inbox := rfl
@[simp] theorem State.holdOn_arg (s : State) : (s.holdOn).arg = s.arg := rfl
@[simp] theorem State.holdOn_drawn (s : State) : (s.holdOn).drawn = s.drawn := rfl
@[simp] theorem State.holdOn_cycle (s : State) : (s.holdOn).cycle = s.cycle := rfl

@[simp] theorem State.getSlot_self (s : State) : s.getSlot s.slotNo = s.slot := by simp [State.getSlot]
@[simp] theorem State.getCore_self (s : State) : s.getCore s.coreNo = s.core := by simp [State.getCore]
@[simp] theorem State.modSlot_self (s : State) (f : Slot → Slot) : s.modSlot s.slotNo f = s.upd f := by
  simp [State.modSlot, State.setSlot, State.upd]
@[simp] theorem State.modCore_self (s : State) (f : Core → Core) : s.modCore s.coreNo f = s.updCore f := by
  simp [State.modCore, State.setCore, State.updCore]

end Sys2Proof.Machine
end

