-- ==== Sys2Proof/Laws/Scalar.lean ====
section
/-! SUPPORT. Registers, links and the shapes of scalar instructions. -/

namespace Sys2Proof.Machine

/-! ### Registers -/

@[simp] theorem State.getX_zero (s : State) : s.getX 0 = 0 := by simp [State.getX]
@[simp] theorem State.setX_zero (s : State) (v : Dword) : s.setX 0 v = s := by simp [State.setX]

theorem State.getX_setX_same (s : State) {d : RegNo} (v : Dword) (h : d ≠ 0) : (s.setX d v).getX d = v := by
  unfold State.setX State.getX
  rw [if_neg h, if_neg h]
  exact Vector.getElem_set_self _

theorem State.getX_setX_other (s : State) {d r : RegNo} (v : Dword) (h : r ≠ d) : (s.setX d v).getX r = s.getX r := by
  unfold State.setX State.getX
  split
  · rfl
  · split
    · rfl
    · exact Vector.getElem_set_ne d.isLt r.isLt fun e => h (BitVec.eq_of_toNat_eq e.symm)

/-- A write of a scalar register changes the scalar registers of the slot alone. -/
theorem State.setX_frame (s : State) (d : RegNo) (v : Dword) :
    s.setX d v = { s with slot := { s.slot with x := (s.setX d v).slot.x } } := by
  unfold State.setX
  split <;> rfl

/-! ### Links (R185) -/

@[simp] theorem State.linksOf_off (s : State) (l : List RegNo) (h : s.slot.lm = false) : s.linksOf l = [] := by
  simp [State.linksOf, h]

theorem State.linksOk_off (s : State) (reads : List RegNo) (w : Option RegNo) (h : s.slot.lm = false) :
    s.LinksOk reads w := by
  refine ⟨?_, ?_, ?_⟩ <;> simp [State.linkEdge, State.linksFenced, State.linkReady, h]

theorem State.popLinks_off (s : State) (reads : List RegNo) (h : s.slot.lm = false) : s.popLinks reads = s := by
  simp [State.popLinks, h]

theorem State.src_off (s : State) (p : List RegNo) (r : RegNo) (h : s.slot.lm = false) : s.src p r = s.getX r := by
  simp [State.src, h]

theorem State.retire_off (s : State) (reads : List RegNo) (d : RegNo) (v : Dword) (h : s.slot.lm = false) :
    s.retire reads d v = s.setX d v := by
  simp [State.retire, State.popLinks_off s reads h, State.putX, h]

/-- The gate opens when the links are ready. -/
theorem State.linkGate_ok (s : State) (reads : List RegNo) (w : Option RegNo) (k : Out) (h : s.LinksOk reads w) :
    s.linkGate reads w k = k := by
  unfold State.linkGate
  rw [if_neg (by simp [h.1]), if_neg (by simp [h.2.1]), if_pos h.2.2]

/-- What the gate can do: open, trap ILLEGAL at the edge of the grid, wait for a fence, or park. -/
theorem State.linkGate_cases (s : State) (reads : List RegNo) (w : Option RegNo) (k : Out) :
    (s.LinksOk reads w ∧ s.linkGate reads w k = k) ∨ s.linkGate reads w k = s.illegal
      ∨ s.linkGate reads w k = .next s.holdOn ∨ ∃ a b, s.linkGate reads w k = .next (s.parkAt (.link a b)) := by
  unfold State.linkGate
  split
  · exact .inr (.inl rfl)
  · rename_i h
    split
    · exact .inr (.inr (.inl rfl))
    · rename_i hf
      split
      · rename_i h'
        exact .inl ⟨⟨by simpa using h, by simpa using hf, h'⟩, rfl⟩
      · exact .inr (.inr (.inr ⟨_, _, rfl⟩))

/-- Popping words changes the link queues of the slot's core alone. -/
theorem State.popLinks_frame (s : State) (reads : List RegNo) :
    s.popLinks reads = s.updCore fun c => { c with links := (s.popLinks reads).core.links } := by
  unfold State.popLinks
  generalize s.linksOf reads = l
  induction l generalizing s with
  | nil => rfl
  | cons d l ih =>
    simp only [List.foldl_cons]
    rw [ih]
    simp [State.updCore, Core.modLink]

@[simp] theorem State.popLinks_slot (s : State) (reads : List RegNo) : (s.popLinks reads).slot = s.slot := by
  rw [State.popLinks_frame]; rfl
@[simp] theorem State.popLinks_mem (s : State) (reads : List RegNo) : (s.popLinks reads).mem = s.mem := by
  rw [State.popLinks_frame]; rfl
@[simp] theorem State.popLinks_slotNo (s : State) (reads : List RegNo) : (s.popLinks reads).slotNo = s.slotNo := by
  rw [State.popLinks_frame]; rfl

/-! ### The shapes of scalar instructions -/

theorem State.op2_ok (s : State) (d a b : RegNo) (f : Dword → Dword → Dword) (h : s.LinksOk [a, b] (some d)) :
    s.op2 d a b f = .next (s.retire [a, b] d (f (s.src [] a) (s.src [a] b))) := s.linkGate_ok _ _ _ h

theorem State.op1_ok (s : State) (d a : RegNo) (f : Dword → Dword) (h : s.LinksOk [a] (some d)) :
    s.op1 d a f = .next (s.retire [a] d (f (s.src [] a))) := s.linkGate_ok _ _ _ h

theorem State.op0_ok (s : State) (d : RegNo) (v : Dword) (h : s.LinksOk [] (some d)) :
    s.op0 d v = .next (s.retire [] d v) := s.linkGate_ok _ _ _ h

theorem State.cmp2_ok (s : State) (d a b : RegNo) (f : Dword → Dword → Bool) (h : s.LinksOk [a, b] (some d)) :
    s.cmp2 d a b f = .next (s.compare [a, b] d (f (s.src [] a) (s.src [a] b))) := s.linkGate_ok _ _ _ h

theorem State.cmp1_ok (s : State) (d a : RegNo) (f : Dword → Bool) (h : s.LinksOk [a] (some d)) :
    s.cmp1 d a f = .next (s.compare [a] d (f (s.src [] a))) := s.linkGate_ok _ _ _ h

/-- A rounding form with a mode completes. -/
theorem State.fpOut_ok (s : State) (reads : List RegNo) (d : RegNo) (t r : Nat) (ext : Nat → Dword) (y : XRes) {m : RMode}
    (hm : s.rmode r = some m) (h : s.LinksOk reads (some d)) :
    s.fpOut reads d t r ext y
      = .next (((s.orFflags (y.flags ||| (roundTo t m (modSat s.slot.mods) (modPost s.slot.mods t y.val)
          (s.rword 0)).flags)).bumpSeed m).retire reads d
          (ext (roundTo t m (modSat s.slot.mods) (modPost s.slot.mods t y.val) (s.rword 0)).code)) := by
  unfold State.fpOut State.fpRound
  rw [State.linkGate_ok _ _ _ _ h, hm]
  rfl

/-- A rounding form without a mode traps ILLEGAL. -/
theorem State.fpOut_none (s : State) (reads : List RegNo) (d : RegNo) (t r : Nat) (ext : Nat → Dword) (y : XRes)
    (hm : s.rmode r = none) (h : s.LinksOk reads (some d)) : s.fpOut reads d t r ext y = s.illegal := by
  unfold State.fpOut State.fpRound
  rw [State.linkGate_ok _ _ _ _ h, hm]
  rfl

end Sys2Proof.Machine
end

