-- ==== Sys2Proof/Laws/Memory.lean ====
section
/-! SUPPORT. The memory keeps its canonical form and reads what was written; where plain accesses land. -/

namespace Sys2Proof.Machine

/-! ### Bytes -/

theorem Memory.get_of_not_mem (m : Memory) (a : Nat) (h : ∀ c ∈ m, c.1 ≠ a) : m.get a = Memory.unlisted := by
  induction m with
  | nil => rfl
  | cons c r ih =>
    obtain ⟨k, b⟩ := c
    simp only [Memory.get]
    rw [if_neg (h (k, b) (by simp))]
    exact ih fun c hc => h c (by simp [hc])

theorem Memory.get_filter_other (m : Memory) (a b : Nat) (h : b ≠ a) :
    Memory.get (m.filter fun c => c.1 ≠ a) b = m.get b := by
  induction m with
  | nil => rfl
  | cons c r ih =>
    obtain ⟨k, v⟩ := c
    by_cases hk : k = a
    · subst hk
      have hb : ¬k = b := fun e => h e.symm
      simpa [Memory.get, hb] using ih
    · by_cases hb : k = b <;> simp_all [Memory.get]

theorem Memory.get_ins (m : Memory) (a : Nat) (v : Byte) (b : Nat) (h : ∀ c ∈ m, c.1 ≠ a) :
    Memory.get (Memory.ins m a v) b = if b = a then v else m.get b := by
  induction m with
  | nil => by_cases hb : b = a <;> simp_all [Memory.ins, Memory.get, eq_comm]
  | cons c r ih =>
    obtain ⟨k, u⟩ := c
    have hk : k ≠ a := h (k, u) (by simp)
    have hr := ih fun c hc => h c (by simp [hc])
    by_cases hl : a < k
    · by_cases hb : b = a
      · subst hb; simp [Memory.ins, Memory.get, hl]
      · have ha : ¬a = b := fun e => hb e.symm
        simp [Memory.ins, Memory.get, hl, hb, ha]
    · by_cases hb : k = b
      · subst hb; simp [Memory.ins, Memory.get, hl, hk]
      · simp [Memory.ins, Memory.get, hl, hb, hr]

theorem Memory.get_put (m : Memory) (a : Nat) (v : Byte) (b : Nat) : (m.put a v).get b = if b = a then v else m.get b := by
  unfold Memory.put
  by_cases hv : v = Memory.unlisted
  · rw [if_pos hv]
    by_cases hb : b = a
    · subst hb
      rw [if_pos rfl, Memory.get_of_not_mem _ _ (by simp), hv]
    · rw [if_neg hb, Memory.get_filter_other _ _ _ hb]
  · rw [if_neg hv, Memory.get_ins _ _ _ _ (by simp)]
    by_cases hb : b = a
    · rw [if_pos hb, if_pos hb]
    · rw [if_neg hb, if_neg hb, Memory.get_filter_other _ _ _ hb]

/-- A write leaves every byte outside it. -/
theorem Memory.get_write_outside (m : Memory) (a n v b : Nat) (h : b < a ∨ a + n ≤ b) : (m.write a n v).get b = m.get b := by
  induction n generalizing m a v with
  | zero => rfl
  | succ n ih =>
    simp only [Memory.write]
    rw [ih _ _ _ (by omega), Memory.get_put, if_neg (by omega)]

/-- A write is read back. -/
theorem Memory.get_write_inside (m : Memory) (a n v j : Nat) (h : j < n) :
    (m.write a n v).get (a + j) = BitVec.ofNat 8 (v / 2 ^ (8 * j)) := by
  induction n generalizing m a v j with
  | zero => omega
  | succ n ih =>
    simp only [Memory.write]
    cases j with
    | zero => rw [Memory.get_write_outside _ _ _ _ _ (by omega), Memory.get_put]; simp
    | succ j =>
      have := ih (m.put a (BitVec.ofNat 8 v)) (a + 1) (v / 256) j (by omega)
      rw [show a + (j + 1) = a + 1 + j by omega, this, Nat.div_div_eq_div_mul]
      congr 2
      rw [show 8 * (j + 1) = 8 + 8 * j by omega, Nat.pow_add]

/-- What a read gives depends on the bytes it reads alone. -/
theorem Memory.read_congr (m k : Memory) (a n : Nat) (h : ∀ j < n, m.get (a + j) = k.get (a + j)) :
    m.read a n = k.read a n := by
  induction n generalizing a with
  | zero => rfl
  | succ n ih =>
    have h0 := h 0 (by omega)
    have hr := ih (a + 1) fun j hj => by
      have := h (j + 1) (by omega)
      rwa [show a + (j + 1) = a + 1 + j by omega] at this
    simp only [Nat.add_zero] at h0
    simp only [Memory.read, h0, hr]

/-! ### The canonical form -/

theorem Memory.wf_filter {m : Memory} (p : Host.Cell → Bool) (h : m.wf) : Memory.wf (m.filter p) :=
  ⟨h.1.filter _, fun c hc => h.2 c (List.mem_filter.1 hc).1⟩

theorem Memory.mem_ins {m : Memory} {a : Nat} {v : Byte} {c : Host.Cell} (h : c ∈ Memory.ins m a v) :
    c = (a, v) ∨ c ∈ m := by
  induction m with
  | nil => simpa [Memory.ins] using h
  | cons d r ih =>
    obtain ⟨k, u⟩ := d
    simp only [Memory.ins] at h
    split at h
    · simpa using h
    · rcases List.mem_cons.1 h with e | e
      · exact .inr (by simp [e])
      · rcases ih e with e | e
        · exact .inl e
        · exact .inr (by simp [e])

theorem Memory.wf_ins {m : Memory} {a : Nat} {v : Byte} (h : m.wf) (hv : v ≠ Memory.unlisted) (ha : ∀ c ∈ m, c.1 ≠ a) :
    Memory.wf (Memory.ins m a v) := by
  induction m with
  | nil => exact ⟨by simp [Memory.ins], by simpa [Memory.ins] using hv⟩
  | cons d r ih =>
    obtain ⟨k, u⟩ := d
    have hk : k ≠ a := ha (k, u) (by simp)
    obtain ⟨h1, h2⟩ := h
    rw [List.pairwise_cons] at h1
    have hr := ih ⟨h1.2, fun c hc => h2 c (by simp [hc])⟩ fun c hc => ha c (by simp [hc])
    simp only [Memory.ins]
    split
    · rename_i hl
      refine ⟨?_, ?_⟩
      · rw [List.pairwise_cons, List.pairwise_cons]
        refine ⟨fun c hc => ?_, h1.1, h1.2⟩
        rcases List.mem_cons.1 hc with e | e
        · subst e; exact hl
        · exact Nat.lt_trans hl (h1.1 c e)
      · intro c hc
        rcases List.mem_cons.1 hc with e | e
        · subst e; exact hv
        · exact h2 c e
    · rename_i hl
      refine ⟨?_, ?_⟩
      · rw [List.pairwise_cons]
        refine ⟨fun c hc => ?_, hr.1⟩
        rcases Memory.mem_ins hc with e | e
        · subst e; show k < a; omega
        · exact h1.1 c e
      · intro c hc
        rcases List.mem_cons.1 hc with e | e
        · subst e; exact h2 _ (by simp)
        · exact hr.2 c e

/-- Replacing a byte keeps the canonical form. -/
theorem Memory.wf_put {m : Memory} (a : Nat) (v : Byte) (h : m.wf) : (m.put a v).wf := by
  unfold Memory.put
  split
  · exact Memory.wf_filter _ h
  · rename_i hv
    exact Memory.wf_ins (Memory.wf_filter _ h) hv (by simp)

theorem Memory.wf_write {m : Memory} (a n v : Nat) (h : m.wf) : (m.write a n v).wf := by
  induction n generalizing m a v with
  | zero => exact h
  | succ n ih => exact ih _ _ (Memory.wf_put _ _ h)

theorem Memory.wf_writeList {m : Memory} (a : Nat) (l : List Byte) (h : m.wf) : (m.writeList a l).wf := by
  induction l generalizing m a with
  | nil => exact h
  | cons b r ih => exact ih _ (Memory.wf_put _ _ h)

/-! ### Where plain accesses land -/

@[simp] theorem State.ctx_slot (s : State) : s.ctx.slot = s.slotNo := rfl
@[simp] theorem State.ctx_core (s : State) : s.ctx.core = s.coreNo := rfl
@[simp] theorem State.ctx_eng (s : State) : s.ctx.eng = false := rfl
@[simp] theorem State.ctx_mode (s : State) : s.ctx.mode = s.slot.mode := by simp [State.ctx, State.ctxOf]
@[simp] theorem State.ctx_wfmt (s : State) : s.ctx.wfmt = s.slot.wfmt := by simp [State.ctx, State.ctxOf]
@[simp] theorem State.ctx_footh (s : State) : s.ctx.footh = s.slot.footh.toNat := by simp [State.ctx, State.ctxOf]
@[simp] theorem State.ctxC_zero (s : State) : s.ctxC 0 = s.ctx := rfl
@[simp] theorem State.ctxC_slot (s : State) (c : BitVec 4) : (s.ctxC c).slot = s.slotNo := rfl
@[simp] theorem State.ctxC_core (s : State) (c : BitVec 4) : (s.ctxC c).core = s.coreNo := rfl
@[simp] theorem State.ctxC_eng (s : State) (c : BitVec 4) : (s.ctxC c).eng = false := rfl
@[simp] theorem State.ctxC_dieFor (s : State) (c : BitVec 4) (pa : Nat) : (s.ctxC c).dieFor pa = dieOfCore s.coreNo := rfl
@[simp] theorem State.ctxC_mode (s : State) (c : BitVec 4) : (s.ctxC c).mode = s.slot.mode := by simp [State.ctxC]
@[simp] theorem State.ctxC_wfmt (s : State) (c : BitVec 4) : (s.ctxC c).wfmt = s.slot.wfmt := by simp [State.ctxC]
@[simp] theorem State.ctxC_footh (s : State) (c : BitVec 4) : (s.ctxC c).footh = s.slot.footh.toNat := by simp [State.ctxC]

theorem State.target_raw (s : State) (va : Dword) (n key : Nat) (k : AccessKind) (c : BitVec 4)
    (h : s.LandsRaw va n key) : s.target (s.ctxC c) va n k = .ok (.raw key) s := by
  rcases h with h | ⟨w, off, h, hk, ho, rfl⟩
  · simp [State.target, State.locate, State.lineReady, State.landsBadly, Res.bind, h]
  · simp only [State.target, State.locate, State.ctxC_core, h, State.ctxC_wfmt, hk]
    rw [if_neg (Nat.not_lt.2 ho)]
    rfl

/-- A local access that can be made reaches its key. -/
theorem State.reach_raw (s : State) {va : Dword} {n key : Nat} {k : AccessKind} {c : BitVec 4}
    (h : s.RawAt va n key (k = .write) c) : s.reach (s.ctxC c) va n k = .ok (.raw key) s := by
  obtain ⟨h1, h2, h3, h4⟩ := h
  simp [State.reach, h1, h2, s.target_raw va n key k c h3, Res.bind, State.waits, lockKey, h4]

theorem isLocal_small (va : Dword) (h : va.toNat < 2 ^ 40) : isLocal va = false := by
  unfold isLocal fld
  simp only [decide_eq_false_iff_not]
  intro e
  have := congrArg BitVec.toNat e
  rw [BitVec.extractLsb'_toNat, Nat.shiftRight_eq_div_pow, Nat.div_eq_of_lt (by omega)] at this
  simp at this

theorem State.rangeAt_none (s : State) {pa n : Nat} (hn : 0 < n) (h : s.touchesRange pa n = false) : s.rangeAt pa = none := by
  simp only [State.rangeAt, List.find?_eq_none]
  intro r hr he
  simp only [State.touchesRange, List.any_eq_false, CRange.touches] at h
  simp only [CRange.offOf, List.findSome?_isSome_iff] at he
  obtain ⟨u, hu, hs⟩ := he
  have := h r hr
  simp only [List.any_eq_true, not_exists, not_and, Bool.and_eq_true, decide_eq_true_eq] at this
  split at hs
  · rename_i hc
    exact this u hu (by omega) hc.2
  · simp at hs

/-- A device access that can be made reaches its physical address. -/
theorem State.reach_device (s : State) {va : Dword} {n : Nat} {k : AccessKind} {c : BitVec 4} (hn : 0 < n)
    (h : s.DeviceAt va n (k = .write) c) : s.reach (s.ctxC c) va n k = .ok (.glob va.toNat) s := by
  obtain ⟨hm, hl, ha, hp, hh, hr, hi⟩ := h
  have h56 : fld va 56 8 = 0 := by
    apply BitVec.eq_of_toNat_eq
    rw [fld, BitVec.extractLsb'_toNat, Nat.shiftRight_eq_div_pow, Nat.div_eq_of_lt (by omega)]
    rfl
  have hph : s.phys va.toNat = .device := by unfold State.phys; exact if_pos hl
  have hmiss (w : Bool) : s.hostMissing va.toNat w = false := by
    simp [State.hostMissing]; omega
  have ht : s.translate (s.ctxC c) va k = .ok va.toNat s := by
    simp only [State.translate, State.ctxC_mode, hm, if_true, hph]
    rw [if_neg (by omega), if_neg (by simp)]
  have hg : s.locate (s.ctxC c) va n k = .ok (.glob va.toNat) s := by
    simp [State.locate, locOf, isLocal_small va hl, ht, Res.bind, hph]
  have hb : s.landsBadly false k n (8 * n) (.glob va.toNat) = false := by
    simp [State.landsBadly, s.rangeAt_none hn hr, hr]
  simp [State.reach, h56, ha, State.target, hg, State.lineReady, Res.bind, hb, hp, hmiss, hh, State.waits, lockKey, hi]

theorem State.load_raw (s : State) {va : Dword} {n key : Nat} {c : BitVec 4} (foot : Nat) (h : s.RawAt va n key false c) :
    s.load (s.ctxC c) va n foot = .ok (s.mem.read key n) (s.touchKey s.coreNo key false) := by
  simp [State.load, s.reach_raw (k := .read) (by simpa using h), Res.bind, State.loadAt]

theorem State.store_raw (s : State) {va : Dword} {n key : Nat} {c : BitVec 4} (v : Nat) (h : s.RawAt va n key true c) :
    s.store (s.ctxC c) va n v = .ok () { s.touchKey s.coreNo key true with mem := s.mem.write key n v } := by
  simp [State.store, s.reach_raw (k := .write) (by simpa using h), Res.bind, State.storeAt]

theorem State.load_device (s : State) {va : Dword} {n : Nat} {c : BitVec 4} (foot : Nat) (hn : 0 < n)
    (h : s.DeviceAt va n false c) :
    s.load (s.ctxC c) va n foot
      = .ok ((s.readLine s.coreNo (va.toNat / 64) true (foot ≤ s.slot.footh.toNat)).2.toNat / 2 ^ (8 * (va.toNat % 64))
          % 2 ^ (8 * n)) (s.readLine s.coreNo (va.toNat / 64) true (foot ≤ s.slot.footh.toNat)).1 := by
  simp [State.load, s.reach_device (k := .read) hn (by simpa using h), Res.bind, State.loadAt,
    s.rangeAt_none hn h.2.2.2.2.2.1, State.readLine]

theorem State.store_device (s : State) {va : Dword} {n : Nat} {c : BitVec 4} (v : Nat) (hn : 0 < n)
    (h : s.DeviceAt va n true c) : s.store (s.ctxC c) va n v = .ok () (s.writeLine s.coreNo va.toNat n v) := by
  simp [State.store, s.reach_device (k := .write) hn (by simpa using h), Res.bind, State.storeAt,
    s.rangeAt_none hn h.2.2.2.2.2.1, h.2.2.2.2.2.1, State.writeLine]

/-! ### Dies in use (R449) -/

@[simp] theorem State.die_modDie (s : State) (d k : DieNo) (f : Die → Die) :
    (s.modDie d f).die k = if k = d then f (s.die d) else s.die k := by
  simp only [State.die, State.modDie, State.setDie, Vector.getElem_set, BitVec.toNat_inj, eq_comm]

/-- A die that is told of something is in use; no line becomes POISON by it, and nothing else of the state changes. -/
@[simp] theorem State.poisoned_touchDie (s : State) (d : DieNo) (l : Nat) : (s.touchDie d).poisoned l = s.poisoned l := by
  simp only [State.poisoned, State.touchDie, State.die_modDie, apply_ite Die.lost]
  congr 1
  split <;> simp_all

@[simp] theorem State.poisoned_messageDie (s : State) (d : DieNo) (l : Nat) :
    (s.messageDie d).poisoned l = s.poisoned l := by
  unfold State.messageDie; split <;> simp

theorem State.touchDie_same (s : State) (d : DieNo) : s.touchDie d = { s with dies := (s.touchDie d).dies } := rfl
theorem State.messageDie_same (s : State) (d : DieNo) : s.messageDie d = { s with dies := (s.messageDie d).dies } := by
  unfold State.messageDie; split <;> rfl

@[simp] theorem State.messageDie_mem (s : State) (d : DieNo) : (s.messageDie d).mem = s.mem := by
  rw [s.messageDie_same d]
@[simp] theorem State.messageDie_queues (s : State) (d : DieNo) : (s.messageDie d).queues = s.queues := by
  rw [s.messageDie_same d]
@[simp] theorem State.messageDie_nasum (s : State) (d : DieNo) : (s.messageDie d).nasum = s.nasum := by
  rw [s.messageDie_same d]

/-! ### What the accesses to lines carry on (R233, log 106) -/

/-- A read of a line moves what its core has seen and the line's mark, nothing else. -/
theorem State.noteRead_same (s : State) (c : CoreNo) (l w r : Nat) :
    s.noteRead c l w r
      = { s with
          core := (s.noteRead c l w r).core, otherCores := (s.noteRead c l w r).otherCores,
          marks := (s.noteRead c l w r).marks } := by
  unfold State.noteRead State.modCore State.setCore State.setMark
  dsimp only
  split <;> split <;> rfl

theorem State.noteWrite_same (s : State) (c : CoreNo) (l w : Nat) :
    s.noteWrite c l w
      = { s with
          core := (s.noteWrite c l w).core, otherCores := (s.noteWrite c l w).otherCores,
          marks := (s.noteWrite c l w).marks } := by
  unfold State.noteWrite State.modCore State.setCore State.setMark
  dsimp only
  split <;> split <;> rfl

/-- An access to a local memory moves what its core has seen and the line's mark, and may wake a die: nothing else. -/
theorem State.touchKey_same (s : State) (c : CoreNo) (k : Nat) (wr : Bool) :
    s.touchKey c k wr
      = { s with
          core := (s.touchKey c k wr).core, otherCores := (s.touchKey c k wr).otherCores,
          marks := (s.touchKey c k wr).marks, dies := (s.touchKey c k wr).dies } := by
  unfold State.touchKey State.noteWrite State.noteRead State.modCore State.setCore State.setMark
  dsimp only
  split <;> split <;> split <;> split <;> rfl

/-- The bytes of a local memory are those of the memory. -/
@[simp] theorem State.touchKey_mem (s : State) (c : CoreNo) (k : Nat) (wr : Bool) : (s.touchKey c k wr).mem = s.mem := by
  rw [s.touchKey_same c k wr]
@[simp] theorem State.touchKey_slot (s : State) (c : CoreNo) (k : Nat) (wr : Bool) : (s.touchKey c k wr).slot = s.slot := by
  rw [s.touchKey_same c k wr]
@[simp] theorem State.touchKey_slotNo (s : State) (c : CoreNo) (k : Nat) (wr : Bool) :
    (s.touchKey c k wr).slotNo = s.slotNo := by
  rw [s.touchKey_same c k wr]
@[simp] theorem State.touchKey_cmds (s : State) (c : CoreNo) (k : Nat) (wr : Bool) : (s.touchKey c k wr).cmds = s.cmds := by
  rw [s.touchKey_same c k wr]

/-- Of the core in place an access to a local memory moves only what it has seen. -/
theorem State.touchKey_core (s : State) (c : CoreNo) (k : Nat) (wr : Bool) :
    ∃ n, (s.touchKey c k wr).core = { s.core with seen := n } := by
  have h (q : State) (f : Core → Core) (hf : ∀ k, ∃ n, f k = { k with seen := n }) :
      ∃ n, (q.modCore c f).core = { q.core with seen := n } := by
    unfold State.modCore State.setCore State.getCore
    split
    · exact hf _
    · exact ⟨q.core.seen, rfl⟩
  unfold State.touchKey State.noteWrite State.noteRead State.setMark
  dsimp only
  split <;> split <;> split <;> exact h _ _ fun _ => ⟨_, rfl⟩

/-! ### What a line that moves between the caches changes -/

/-- From `s` to `t` no more than the homes, the slices, the cells, the dies and what is sent to the host has changed. -/
def State.CacheMove (s t : State) : Prop :=
  t = { s with homes := t.homes, slices := t.slices, cells := t.cells, dies := t.dies, outbox := t.outbox }

theorem State.CacheMove.refl (s : State) : s.CacheMove s := rfl

theorem State.CacheMove.trans {s t u : State} (h : s.CacheMove t) (k : t.CacheMove u) : s.CacheMove u := by
  unfold State.CacheMove at *; rw [k, h]

theorem State.touchDie_cacheMove (s : State) (d) : s.CacheMove (s.touchDie d) := rfl

theorem State.CacheMove.foldl {α : Type} {f : State → α → State} (hf : ∀ s a, State.CacheMove s (f s a)) (l : List α)
    (s : State) : s.CacheMove (l.foldl f s) := by
  induction l generalizing s with
  | nil => rfl
  | cons a l ih => exact (hf s a).trans (ih _)

theorem State.recallOwner_cacheMove (s : State) (l b) : s.CacheMove (s.recallOwner l b) := by
  unfold State.recallOwner
  dsimp only
  split
  · split
    · split <;> rfl
    · rfl
  · rfl

theorem State.invalidate_cacheMove (s : State) (d l) : s.CacheMove (s.invalidate d l) := by
  unfold State.invalidate
  dsimp only
  exact (State.CacheMove.foldl (fun s c => s.touchDie_cacheMove _) _ s).trans rfl

theorem State.setHome_cacheMove (s : State) (l h) : s.CacheMove (s.setHome l h) := rfl

theorem State.onlyHome_cacheMove (s : State) (l) : s.CacheMove (s.onlyHome l) :=
  ((s.invalidate_cacheMove _ l).trans (State.recallOwner_cacheMove _ l true)).trans (State.setHome_cacheMove _ _ _)

theorem State.evictHome_cacheMove (s : State) (l) : s.CacheMove (s.evictHome l) := by
  unfold State.evictHome
  split
  · exact (((s.onlyHome_cacheMove l).trans (State.setHome_cacheMove _ _ _)).trans (State.setHome_cacheMove _ _ _)).trans
      (show State.CacheMove _ (State.send _ _) from rfl)
  · rfl

theorem State.evictOne_cacheMove (s : State) (d) : s.CacheMove (s.evictOne d) := by
  unfold State.evictOne
  split
  · unfold State.dropCopy
    dsimp only
    split
    · exact (show s.CacheMove ((s.dropCells _ _).touchDie _) from rfl).trans (State.recallOwner_cacheMove _ _ _)
    · rfl
  · split
    · rename_i p _
      exact (show s.CacheMove (s.dropCells d p.1) from rfl).trans (State.evictHome_cacheMove _ _)
    · rfl

theorem State.makeRoom_cacheMove (s : State) (d) : s.CacheMove (s.makeRoom d) := by
  unfold State.makeRoom; split
  · rfl
  · exact State.evictOne_cacheMove s d

theorem State.fillHome_cacheMove (s : State) (l b) : s.CacheMove (s.fillHome l b) := by
  unfold State.fillHome
  dsimp only
  split
  · rfl
  · exact (State.touchDie_cacheMove _ _).trans ((State.makeRoom_cacheMove _ _).trans rfl)

/-- A U copy that leaves an L1 changes no byte of memory (R225, R226). -/
@[simp] theorem State.drainU_mem (s : State) (r : CRange) (c : CoreNo) (line : Nat) : (s.drainU r c line).mem = s.mem := by
  have h := (State.touchDie_cacheMove s (dieOfCore c)).trans (State.fillHome_cacheMove _ line true)
  unfold State.drainU State.riseTime State.modDie
  dsimp only
  have hm := congrArg State.mem h
  split <;> exact hm

/-- Where a device access can be made at once, its line is at its owner (R222, R249). -/
theorem State.reachOwner_device (s : State) {va : Dword} {n : Nat} {c : BitVec 4} (w : Bool)
    (h : s.DeviceAt va n false c) (h' : s.DeviceAt va n true c) :
    s.reachOwner (s.ctxC c) va n (if w then .write else .read) true = .ok (.glob va.toNat) s := by
  obtain ⟨hm, hl, ha, hp, -, hr, hi⟩ := h
  obtain ⟨-, -, -, -, hh', -, hi'⟩ := h'
  have h56 : fld va 56 8 = 0 := by
    apply BitVec.eq_of_toNat_eq
    rw [fld, BitVec.extractLsb'_toNat, Nat.shiftRight_eq_div_pow, Nat.div_eq_of_lt (by omega)]
    rfl
  have hph : s.phys va.toNat = .device := by unfold State.phys; exact if_pos hl
  have hmiss (w : Bool) : s.hostMissing va.toNat w = false := by
    simp [State.hostMissing]; omega
  have ht (k) : s.translate (s.ctxC c) va k = .ok va.toNat s := by
    simp only [State.translate, State.ctxC_mode, hm, if_true, hph]
    rw [if_neg (by omega), if_neg (by simp)]
  have hg (k) : s.locate (s.ctxC c) va n k = .ok (.glob va.toNat) s := by
    simp [State.locate, locOf, isLocal_small va hl, ht, Res.bind, hph]
  have hb (k) : s.landsBadly true k n (8 * n) (.glob va.toNat) = false := by
    simp [State.landsBadly, hr]
  cases w <;> simp [State.reachOwner, State.reach, h56, ha, State.target, hg, State.lineReady, Res.bind, hb, hp, hmiss, hh',
    State.waits, lockKey, hi, hi']

end Sys2Proof.Machine
end

