-- ==== Sys2Proof/Laws/Turn.lean ====
section
/-! SUPPORT. Where a slot stands after an instruction: cited instead of unfolding the turn. -/

namespace Sys2Proof.Machine

@[simp] theorem Slot.stepReg_st (t : Slot) (r : RegNo) (v : Int) : (t.stepReg r v).st = t.st := by
  unfold Slot.stepReg
  repeat' split
  all_goals rfl

theorem Slot.advance_st (t : Slot) (l : List Nat) : (t.advance l).1.st = t.st := by
  induction l generalizing t with
  | nil => rfl
  | cons k l ih =>
    simp only [Slot.advance]
    split <;> simp [ih]

@[simp] theorem Slot.settle_st (t : Slot) (p : Nat) : (t.settle p).st = t.st := by
  have h := t.advance_st t.levels
  unfold Slot.settle
  repeat' split
  all_goals simp_all [Slot.atBody]

@[simp] theorem Slot.commit_st (before t : Slot) : (Slot.commit before t).st = t.st := by
  unfold Slot.commit
  split
  · rfl
  · dsimp only
    repeat' split
    all_goals simp

/-- Stores come before a reply only where the instruction left the slot FAULTED. -/
theorem State.commit_of_not_faulted (before : Slot) (s : State) (h : s.slot.st ≠ .faulted) :
    s.commit before = s.upd (Slot.commit before) := by
  simp [State.commit, State.early, State.upd, h]

/-- A slot that runs on, outside a body, goes to the address that its instruction has set. -/
theorem Slot.commit_pc (before t : Slot) (hr : t.st = .running) (hh : t.hold = false) (hl : t.loop = false) :
    (Slot.commit before t).pc = t.npc := by
  simp [Slot.commit, hr, hh, hl]

/-- An instruction that is tried again leaves its slot where it is. -/
theorem Slot.commit_hold (before t : Slot) (hh : t.hold = true) : Slot.commit before t = t := by
  simp [Slot.commit, hh]

end Sys2Proof.Machine
end

