-- ==== Sys2Proof/Tests/Slice0.lean ====
section
/-! SUPPORT. Small tests of the model, each on one small state, and for every statement with premises a state and operands
that meet them. Expected values come from the spec's tables and examples, or are worked out by hand from its rules. -/

set_option maxRecDepth 20000
set_option exponentiation.threshold 2100

namespace Sys2Proof.Tests

open Sys2Proof Sys2Proof.Machine

/-! ### Ill-formed instructions are refused (R66) -/

theorem test_wf_rounding : (Instr.fadd 1 2 3 1 6).wf = false ∧ (Instr.fsqrt 1 2 1 6).wf = false
    ∧ (Instr.fmac 1 2 3 1 6).wf = false := by decide
theorem test_wf_conversion : (Instr.fcvtf 1 2 22 1 0).wf = false ∧ (Instr.fcvtt 1 2 3 1 6).wf = false
    ∧ (Instr.vcvt 1 2 28 0 0 0).wf = false ∧ (Instr.vcvt 1 2 3 0 0 6).wf = false := by decide
theorem test_wf_flag : (Instr.bfs 3 0).wf = false ∧ (Instr.bfc 3 0).wf = false := by decide
theorem test_wf_level : (Instr.lcount 6 1).wf = false ∧ (Instr.lstride 6 1 2).wf = false := by decide
theorem test_wf_quad : (Instr.stq 2 1 0 0).wf = false := by decide
theorem test_wf_atomic : (Instr.amoLd 1 2 0 0 7 0 0).wf = false ∧ (Instr.amoSt 1 2 0 0 0 0 3).wf = false
    ∧ (Instr.amoSwap 1 2 0 0 0 0 2).wf = false ∧ (Instr.amoCas 1 2 0 0 0 0 0).wf = false
    ∧ (Instr.amoCas 2 4 0 0 0 0 2).wf = false ∧ (Instr.amoAdd 1 2 0 0 0 0 2).wf = false
    ∧ (Instr.vamoAdd 1 2 0 0 7 0 0).wf = false ∧ (Instr.vamoLd 1 2 0 0 0 0 2).wf = false := by decide
theorem test_wf_vector : (Instr.vtag 1 28).wf = false ∧ (Instr.vceq 1 2 3 0 1).wf = false
    ∧ (Instr.vand 1 2 3 0 3).wf = false ∧ (Instr.vmm 1 2 3 1).wf = false ∧ (Instr.vrred 1 2 8 0).wf = false := by decide
theorem test_wf_wait : (Instr.waita 1 2 3 0 6).wf = false ∧ (Instr.vwait 0 2 3 0 6).wf = false
    ∧ (Instr.barArrive 1 16).wf = false ∧ (Instr.barWait 1 16).wf = false ∧ (Instr.barSync 16).wf = false
    ∧ (Instr.lkstall 1 4).wf = false ∧ (Instr.lkcount 1 4).wf = false ∧ (Instr.lkstallc 1 4).wf = false := by decide
theorem test_wf_scope : (Instr.fence 1 7).wf = false ∧ (Instr.fenceAll 7).wf = false := by decide
theorem test_wf_cell : (Instr.cellPropose 0 1 2).wf = false ∧ (Instr.cellRead 1 2).wf = false
    ∧ (Instr.cellRecycle 3 2).wf = false := by decide
theorem test_wf_registers : (Instr.eregW 0 4 1).wf = false ∧ (Instr.eregR 7 0 1).wf = false ∧ (Instr.crr 1 6).wf = false
    ∧ (Instr.crw 1 2 0x45).wf = false ∧ (Instr.crs 1 2 0x7F).wf = false ∧ (Instr.crc 1 2 0xFFF).wf = false := by decide
theorem test_wf_mc : (Instr.mcB 6 0 0 0).wf = false := by decide

/-! ### Words that the spec's examples write out, and words laid out field by field from its tables (R63 to R82, R346) -/

theorem test_decode_scalar : decode 0x04420008 = some (.addi 2 2 8) ∧ decode 0x05047020 = some (.srli 8 4 32)
    ∧ decode 0x08642828 = some (.bilv2 3 4 5) ∧ decode 0x08647389 = some (.fcvtf 3 4 14 1 1) := by decide
/-- major 02, s3, s4, s5, function 0x09 (R68) -/
theorem test_decode_fields : decode (2#6 ++ 3#5 ++ 4#5 ++ 5#5 ++ 0#5 ++ 0#6) = some (.add 3 4 5) := by decide
theorem test_decode_control : decode 0x108C1FFC = some (.bne 3 0 0x1FFC) ∧ decode 0x1C070001 = some (.lcount 0 7)
    ∧ decode 0x1C000000 = some .loop := by decide
theorem test_decode_memory : decode 0x30623010 = some (.ldW 3 2 3 16) ∧ decode 0x4C820000 = some (.stD 4 2 0 0)
    ∧ decode 0x50821004 = some (.stq 4 2 1 2) ∧ decode 0x50820001 = some (.stqV 4 2 0 0)
    ∧ decode 0x56D550C5 = some (.amoMinu 22 21 0 0 3 1 1) ∧ decode 0x7D042145 = some (.vamoAdd 8 4 0 0 5 1 1)
    ∧ decode 0x90050004 = some (.fence 5 4) ∧ decode 0x9000000D = some (.fenceAll 5) := by decide
theorem test_decode_vector : decode 0x64853248 = some (.vadd 4 5 6 9 1) ∧ decode 0x60622800 = some (.vcfg 3 2 0 5)
    ∧ decode 0x60200801 = some (.vtag 1 1) ∧ decode 0x68430802 = some (.vclt 2 3 1 0 0)
    ∧ decode 0x6C812080 = some (.vcvt 4 1 4 2 0 0) ∧ decode 0x74240000 = some (.vld 1 4 0 0) := by decide
theorem test_decode_tasks : decode 0x80000004 = some .done ∧ decode 0x80821800 = some (.emit 4 2 3)
    ∧ decode 0x80021802 = some (.suspend 0 2 3) ∧ decode 0x84A21808 = some (.waita 5 2 3 1 0)
    ∧ decode 0x84081819 = some (.vwait 0 8 3 1 1) ∧ decode 0x88C00800 = some (.barArrive 6 1)
    ∧ decode 0x88060801 = some (.barWait 6 1) ∧ decode 0x88000002 = some (.barSync 0) := by decide
theorem test_decode_engines : decode 0xA000AE80 = some (.mqCopy 21 26) ∧ decode 0xA0802803 = some (.sbArm 5 3)
    ∧ decode 0xA08301C3 = some (.sbState 7 3) ∧ decode 0xA1003200 = some (.slLoad 6 8) ∧ decode 0xA2000000 = some (.ceRun 0)
    ∧ decode 0xA2810000 = some .gxPrim ∧ decode 0xA28429C8 = some (.gxCommit 5 7 8) ∧ decode 0xA3000000 = some .bvBuild
    ∧ decode 0xA408A000 = some (.eregW 0 8 20) ∧ decode 0xA5950141 = some (.eregR 3 21 5) := by decide
theorem test_decode_shader : decode 0xC1022800 = some (.texSmp 8 2 5 0) ∧ decode 0xCD022080 = some (.vmm 8 2 4 2) := by decide
theorem test_decode_system : decode 0xE0071062 = some (.crw 0 7 0x62) ∧ decode 0xE1000041 = some (.crr 8 0x41)
    ∧ decode 0xE0004000 = some .sys ∧ decode 0xE0005000 = some .brk ∧ decode 0xE0006000 = some .tret := by decide
theorem test_decode_remote : decode 0x95022800 = some (.cellPropose 8 2 5) ∧ decode 0x95020001 = some (.cellRead 8 2)
    ∧ decode 0x80A21805 = some (.penq 5 2 3) ∧ decode 0x9D021802 = some (.vrred 8 2 3 0)
    ∧ decode 0x9CA20000 = some (.crange 5 2) ∧ decode 0x98A20000 = some (.shapeSeal 5 2) := by decide
theorem test_decode_mc : decodeMc 0x0B050000 = some (.mcSub 12 1 4) ∧ decodeMc 0x074F0000 = some (.mcAdd 13 3 12)
    ∧ decodeMc 0x30048000 = some (.mcRd 0 1 2) ∧ decodeMc 0x34348000 = some (.mcWr 0 13 2)
    ∧ decodeMc 0x44000000 = some .mcEnd ∧ decodeMc 0x43140000 = some (.mcElem 12 5 0)
    ∧ decodeMc 0x27400003 = some (.mcAddi 13 0 3) := by decide
/-- A reserved major decodes to nothing. -/
theorem test_decode_reserved : decode 0xF8000000 = none ∧ decodeMc 0xF8000000 = none := by decide
/-- The words that share their bits with a core's are read as a core's (log 40). -/
theorem test_table_word : decodeTableWord 32 0x04420008 = some (.addi 2 2 8)
    ∧ decodeTableWord 32 0xF8000000 = none := by decide

/-! ### Small states -/

/-- A slot that runs in firmware mode, the module booted, with the registers given. -/
def run (l : List (RegNo × Dword)) : State :=
  let s : State := { State.reset with slot := { Slot.reset with st := .running, pc := 0x1000 }, nasum := { phase := 6 } }
  l.foldl (fun s p => s.setX p.1 p.2) s

/-- The same state with other items of the slot. -/
def withSlot (s : State) (f : Slot → Slot) : State := { s with slot := f s.slot }

/-- Elements of 64 bits, as i64, of a state whose VL is given: v1 holds 5, 7, then zeros; v2 holds 3, 9, then zeros. -/
def vec (vl : BitVec 15) (l : List (RegNo × Dword)) : State :=
  withSlot (run l) fun t =>
    { t with vill := false, vew := 6, vl
             v := (t.v.set 1 { data := 5 + 7 * 2 ^ 64 }).set 2 { data := 3 + 9 * 2 ^ 64 } }

/-- Byte 0 of the scratchpad of core 0, at its row of the local map (R206). -/
def spad : Dword := 0xFE000001000000

/-- What an answer holds, where it is a next state. -/
def after {α : Type} (o : Out) (f : State → α) : Option α :=
  match o with
  | .next t => some (f t)
  | _ => none

/-- A plain access of uncompressed local memory that can be made. -/
def raw (s : State) (va : Dword) (n key : Nat) (wr : Bool) : Bool :=
  fld va 56 8 = (0 : BitVec 8) && va.toNat % n = 0 && locOf s.coreNo va n = .raw key && !s.interlocked s.ctx key n wr true

theorem rawAt_of {s : State} {va : Dword} {n key : Nat} {wr : Bool} (h : raw s va n key wr = true) : s.RawAt va n key wr := by
  simp only [raw, Bool.and_eq_true, decide_eq_true_eq, Bool.not_eq_true'] at h
  exact ⟨h.1.1.1, h.1.1.2, .inl h.1.2, h.2⟩

theorem rawAt_all {s : State} {l : List Nat} {va : Nat → Dword} {n : Nat} {key : Nat → Nat} {wr : Bool}
    (h : l.all (fun i => raw s (va i) n (key i) wr) = true) : ∀ i ∈ l, s.RawAt (va i) n (key i) wr :=
  fun i hi => rawAt_of (List.all_eq_true.1 h i hi)

/-- A plain access of device memory in firmware mode that can be made. -/
def dev (s : State) (va : Dword) (n : Nat) (wr : Bool) : Bool :=
  s.slot.mode = 2 && va.toNat < 2 ^ 40 && va.toNat % n = 0 && !s.poisoned (va.toNat / 64) && !s.hostHolds (va.toNat / 64) wr
    && !s.touchesRange va.toNat n && !s.interlocked s.ctx va.toNat n wr false

theorem deviceAt_of {s : State} {va : Dword} {n : Nat} {wr : Bool} (h : dev s va n wr = true) : s.DeviceAt va n wr := by
  simp only [dev, Bool.and_eq_true, decide_eq_true_eq, Bool.not_eq_true'] at h
  obtain ⟨⟨⟨⟨⟨⟨h1, h2⟩, h3⟩, h4⟩, h5⟩, h6⟩, h7⟩ := h
  exact ⟨h1, h2, h3, h4, h5, h6, h7⟩

/-! ### What scalar instructions do, on worked values -/

theorem test_add_wraps : after (exec (.add 3 1 2) (run [(1, 0xFFFFFFFFFFFFFFFF), (2, 2)])) (·.getX 3) = some 1 := by decide
theorem test_sub_order : after (exec (.sub 3 1 2) (run [(1, 5), (2, 7)])) (·.getX 3) = some 0xFFFFFFFFFFFFFFFE := by decide
theorem test_addi_source_is_destination : after (exec (.addi 1 1 0xFFF) (run [(1, 5)])) (·.getX 1) = some 4 := by decide
theorem test_write_of_s0 : after (exec (.add 0 1 2) (run [(1, 1), (2, 2)])) (·.getX 0) = some 0 := by decide
theorem test_shift_takes_six_bits : after (exec (.sll 3 1 2) (run [(1, 1), (2, 65)])) (·.getX 3) = some 2
    ∧ after (exec (.sra 3 1 2) (run [(1, 0x8000000000000000), (2, 63)])) (·.getX 3) = some 0xFFFFFFFFFFFFFFFF := by decide
theorem test_mulh_signs : after (exec (.mulh 3 1 2) (run [(1, 0xFFFFFFFFFFFFFFFF), (2, 1)])) (·.getX 3) = some 0xFFFFFFFFFFFFFFFF
    ∧ after (exec (.mulhu 3 1 2) (run [(1, 0xFFFFFFFFFFFFFFFF), (2, 1)])) (·.getX 3) = some 0
    ∧ after (exec (.mulhsu 3 1 2) (run [(1, 1), (2, 0xFFFFFFFFFFFFFFFF)])) (·.getX 3) = some 0 := by decide
/-- Divisions at their ends (R98). -/
theorem test_div_ends : after (exec (.div 3 1 0) (run [(1, 5)])) (·.getX 3) = some 0x7FFFFFFFFFFFFFFF
    ∧ after (exec (.div 3 1 2) (run [(1, 0x8000000000000000), (2, 0xFFFFFFFFFFFFFFFF)])) (·.getX 3) = some 0x7FFFFFFFFFFFFFFF
    ∧ after (exec (.div 3 1 2) (run [(1, 0xFFFFFFFFFFFFFFF9), (2, 2)])) (·.getX 3) = some 0xFFFFFFFFFFFFFFFD := by decide
theorem test_rem_ends : after (exec (.rem 3 1 0) (run [(1, 5)])) (·.getX 3) = some 5
    ∧ after (exec (.rem 3 1 2) (run [(1, 0xFFFFFFFFFFFFFFF9), (2, 2)])) (·.getX 3) = some 0xFFFFFFFFFFFFFFFF
    ∧ after (exec (.remu 3 1 0) (run [(1, 5)])) (·.getX 3) = some 5 := by decide
/-- A compare writes t, and ALL, SOME, NONE (R19). -/
theorem test_clt_flags : after (exec (.clt 3 1 0) (run [(1, 0xFFFFFFFFFFFFFFFF)])) (fun t => (t.getX 3, t.slot.flags)) = some (1, 6)
    ∧ after (exec (.cltu 3 1 0) (run [(1, 0xFFFFFFFFFFFFFFFF)])) (fun t => (t.getX 3, t.slot.flags)) = some (0, 1) := by decide
/-- 1 + 2 = 3 in f32, rounded to nearest, with no flag (R121). -/
theorem test_fadd_exact : after (exec (.fadd 3 1 2 1 0) (run [(1, 0x3F800000), (2, 0x40000000)]))
    (fun t => (t.getX 3, t.slot.fflags)) = some (0x40400000, 0) := by decide
/-- 1 / 0 raises DZ and gives infinity (R124). -/
theorem test_fdiv_by_zero : after (exec (.fdiv 3 1 0 1 0) (run [(1, 0x3F800000)]))
    (fun t => (t.getX 3, t.slot.fflags)) = some (0x7F800000, 8) := by decide
/-- 1 / 3 in f32 is inexact, 0x3EAAAAAB (R121). -/
theorem test_fdiv_rounds : after (exec (.fdiv 3 1 2 1 0) (run [(1, 0x3F800000), (2, 0x40400000)]))
    (fun t => (t.getX 3, t.slot.fflags)) = some (0x3EAAAAAB, 1) := by decide
theorem test_branch_taken : after (exec (.bne 1 0 0x1FFC) (run [(1, 1)])) (·.slot.npc) = some 0xFF0
    ∧ after (exec (.beq 1 0 0x1FFC) (run [(1, 1)])) (·.slot.npc) = some 0 := by decide
theorem test_jalr_links : after (exec (.jalr 5 1 4) (run [(1, 0x2000)])) (fun t => (t.slot.npc, t.getX 5)) = some (0x2004, 0x1004)
    ∧ after (exec (.jalr 5 1 2) (run [(1, 0x2000)])) (fun t => (t.slot.st, t.getX 5)) = some (.faulted, 0) := by decide
/-- A store and the sign-extending load of its bytes, lowest byte first (R107). -/
theorem test_store_is_little_endian :
    after (exec (.stW 2 1 0 0) (run [(1, spad), (2, 0x80FF7F01)])) (fun t => (List.range 5).map fun i => t.mem.get (2 ^ 53 + i))
      = some [0x01, 0x7F, 0xFF, 0x80, 0] := by decide
theorem test_load_extends :
    after (exec (.ldH 3 1 0 0) { run [(1, spad)] with mem := [(2 ^ 53, 0xFE), (2 ^ 53 + 1, 0xFF)] }) (·.getX 3)
      = some 0xFFFFFFFFFFFFFFFE
    ∧ after (exec (.ldHu 3 1 0 0) { run [(1, spad)] with mem := [(2 ^ 53, 0xFE), (2 ^ 53 + 1, 0xFF)] }) (·.getX 3)
      = some 0xFFFE := by decide
theorem test_misaligned_load_traps : after (exec (.ldW 3 1 0 2) (run [(1, spad)]))
    (fun t => (t.slot.st, t.getX 3)) = some (.faulted, 0) := by decide
/-- amo.add returns the old value and leaves the sum (R248). -/
theorem test_amo_add : after (exec (.amoAdd 2 1 0 0 0 0 0) { run [(1, spad), (2, 3)] with mem := [(2 ^ 53, 0xFF)] })
    (fun t => (t.getX 2, t.mem.read (2 ^ 53) 4)) = some (0xFF, 0x102) := by decide
/-- A store removes the entry that equals what an unlisted byte reads as. -/
theorem test_store_keeps_the_form : after (exec (.stB 0 1 0 0) { run [(1, spad)] with mem := [(2 ^ 53, 0xFF)] }) (·.mem) = some [] := by
  decide

/-! ### Premises of the scalar statements -/

/-- A slot of core 5 in link mode with two words at its north link and one at its east link. -/
def linked : State :=
  let s := withSlot (run [(1, 7), (2, 9)]) fun t => { t with lm := true }
  { s with slotNo := 40, core := { s.core with links := (s.core.links.set 0 [⟨some 11, none⟩, ⟨some 13, none⟩]).set 1 [⟨some 17, none⟩] } }

/-- A fresh prefix word: SAT. -/
def prefixed : State := withSlot (run [(1, 7), (2, 9)]) fun t => { t with pfx := 0xFE000000 }

theorem witness_RegistersOutsideLinkMode : (run []).slot.lm = false ∧ (3 : RegNo) ≠ 0 ∧ (2 : RegNo) ≠ 3 := by decide
/-- Outside link mode, in it with a word popped twice, and with a push. -/
theorem witness_links_at_hand : (run []).LinksOk [1, 2] (some 3) ∧ linked.LinksOk [28, 28] (some 3)
    ∧ linked.LinksOk [28, 29] (some 31) ∧ linked.LinksOk [1, 2] none := by
  refine ⟨⟨?_, ?_⟩, ⟨?_, ?_⟩, ⟨?_, ?_⟩, ⟨?_, ?_⟩⟩ <;> decide
theorem witness_IntegerRegisterResults : (run []).slot.mods = none ∧ (run []).LinksOk [1, 2] (some 3)
    ∧ (run []).LinksOk [1, 2, 3] (some 3) := ⟨by decide, ⟨by decide, by decide⟩, ⟨by decide, by decide⟩⟩
theorem witness_MultiplicationHalves : linked.slot.mods = none ∧ linked.LinksOk [28, 29] (some 3) :=
  ⟨by decide, ⟨by decide, by decide⟩⟩
theorem witness_DivisionSaturatesAndKeepsTheDividend : (run []).LinksOk [1, 2] (some 3) := ⟨by decide, by decide⟩
theorem witness_PrefixedIntegerResults :
    prefixed.slot.mods = some ⟨true, false, false, false, false, false, 0⟩ ∧ prefixed.LinksOk [1, 2] (some 3) :=
  ⟨by decide, by decide, by decide⟩
theorem witness_ImmediateAndUnaryResults : (run []).LinksOk [1] (some 3) ∧ (run []).LinksOk [] (some 3)
    ∧ linked.LinksOk [28] (some 28) := ⟨⟨by decide, by decide⟩, ⟨by decide, by decide⟩, ⟨by decide, by decide⟩⟩
theorem witness_CompareResultsAndFlags : linked.LinksOk [28, 28] (some 0) ∧ linked.LinksOk [29] (some 3) :=
  ⟨⟨by decide, by decide⟩, ⟨by decide, by decide⟩⟩
/-- Every rounding mode that a selector names, and FRM at the last value it takes it from. -/
theorem witness_FloatingPointResults_modes : (run []).rmode 0 = some .rne ∧ (run []).rmode 5 = some .rsr
    ∧ (withSlot (run []) fun t => { t with frm := 5 }).rmode 7 = some .rsr := by decide
/-- The two cases of fmin and fmax: no prefix with RNE, and a prefix with the mode of FRM. -/
theorem witness_FloatingPointResults_min : ((run []).slot.mods = none ∧ (run []).rmode 0 = some .rne)
    ∧ (prefixed.slot.mods ≠ none ∧ prefixed.rmode 7 = some .rne) := by decide
/-- A reserved FRM at both its values. -/
theorem witness_FloatingPointResults_reserved :
    (let s := withSlot (run []) fun t => { t with frm := 6 }
     6 ≤ s.slot.frm.toNat ∧ s.LinksOk [1, 2, 3] (some 3))
    ∧ 6 ≤ (withSlot (run []) fun t => { t with frm := 7 }).slot.frm.toNat :=
  ⟨⟨by decide, ⟨by decide, by decide⟩⟩, by decide⟩
theorem witness_ScalarRegisterFormFrame : (run []).LinksOk [1, 2] (some 3)
    ∧ exec (.add 3 1 2) (run [(1, 4), (2, 5)]) = .next ((run [(1, 4), (2, 5)]).setX 3 9)
    ∧ ((run []).slot.frm.toNat < 6 ∧ (5 : BitVec 3) ≠ 6) := ⟨⟨by decide, by decide⟩, rfl, by decide⟩

/-- The last target below 2^56, the first at it, and the last of all, which is misaligned. -/
theorem witness_JumpsAndBranchesGoWhereTheySay :
    let s := run [(1, 0xFFFFFFFFFFFFFC)]
    s.slot.loop = false ∧ s.LinksOk [1] (some 2) ∧ s.LinksOk [1, 2] none
      ∧ (s.src [] 1 + BitVec.signExtend 64 (0 : BitVec 16)).toNat < 2 ^ 56
      ∧ (s.src [] 1 + BitVec.signExtend 64 (0 : BitVec 16)).toNat % 4 = 0 :=
  ⟨by decide, ⟨by decide, by decide⟩, ⟨by decide, by decide⟩, by decide, by decide⟩
theorem witness_ControlFlowTraps :
    let s := run [(1, 0xFFFFFFFFFFFFFC)]
    s.slot.loop = false ∧ s.LinksOk [1] (some 2) ∧ 2 ^ 56 ≤ (s.src [] 1 + BitVec.signExtend 64 (4 : BitVec 16)).toNat
      ∧ (s.src [] 1 + BitVec.signExtend 64 (3 : BitVec 16)).toNat < 2 ^ 56
      ∧ (s.src [] 1 + BitVec.signExtend 64 (3 : BitVec 16)).toNat % 4 ≠ 0 :=
  ⟨by decide, ⟨by decide, by decide⟩, by decide, by decide, by decide⟩
theorem witness_ControlFlowTraps_body : (withSlot (run []) fun t => { t with loop := true }).slot.loop = true := by decide

/-- A loop of one word and one level, and one of 64 words and six levels that ends with the scratchpad's row. -/
def looped (lctl : Dword) (pc : BitVec 56) : State := withSlot (run []) fun t => { t with lctl, pc }

theorem witness_SequencerFormsCompleteAndStartTheBody : (run []).slot.loop = false ∧ (run []).LinksOk [1] none
    ∧ (5 : RegNo).toNat < 6 := ⟨by decide, ⟨by decide, by decide⟩, by decide⟩
theorem witness_SequencerForms_loop :
    (let s := looped 0x101 0xFE000001000000
     s.slot.loop = false ∧ 1 ≤ lctlLevels s.slot.lctl ∧ lctlLevels s.slot.lctl ≤ 6 ∧ 1 ≤ lctlLen s.slot.lctl
      ∧ lctlLen s.slot.lctl ≤ 64 ∧ (s.slot.busy && s.slot.tcause.getLsbD 62) = false
      ∧ ∀ j < lctlLen s.slot.lctl, locOf s.coreNo ((s.slot.pc + 4 + BitVec.ofNat 56 (4 * j)).setWidth 64) 4
          = .raw (2 ^ 53 + 4 + 4 * j))
    ∧ (let s := looped 0x640 0xFE00000102FEFC
     1 ≤ lctlLevels s.slot.lctl ∧ lctlLevels s.slot.lctl ≤ 6 ∧ 1 ≤ lctlLen s.slot.lctl
      ∧ lctlLen s.slot.lctl ≤ 64 ∧ (s.slot.busy && s.slot.tcause.getLsbD 62) = false
      ∧ ∀ j < lctlLen s.slot.lctl, locOf s.coreNo ((s.slot.pc + 4 + BitVec.ofNat 56 (4 * j)).setWidth 64) 4
          = .raw (2 ^ 53 + 0x2FF00 + 4 * j)) := by decide

/-! ### Premises of the memory statements -/

/-- The last bytes of the scratchpad's row, and the first and the last doubleword of device memory. -/
theorem witness_LoadsExtendWhatTheyRead :
    let s := run [(1, spad + 0x2FFF8), (2, 0xFFFFFFFFF8)]
    s.LinksOk [1] (some 3) ∧ s.RawAt (s.src [] 1 + BitVec.signExtend 64 (7 : BitVec 12)) 1 (2 ^ 53 + 0x2FFFF) false
      ∧ s.RawAt (s.src [] 1 + BitVec.signExtend 64 (6 : BitVec 12)) 2 (2 ^ 53 + 0x2FFFE) false
      ∧ s.RawAt (s.src [] 1 + BitVec.signExtend 64 (4 : BitVec 12)) 4 (2 ^ 53 + 0x2FFFC) false
      ∧ s.RawAt (s.src [] 1 + BitVec.signExtend 64 (0 : BitVec 12)) 8 (2 ^ 53 + 0x2FFF8) false
      ∧ s.DeviceAt (s.src [] 0 + BitVec.signExtend 64 (0 : BitVec 12)) 8 false
      ∧ s.DeviceAt (s.src [] 2 + BitVec.signExtend 64 (0 : BitVec 12)) 8 false
      ∧ s.DeviceAt (s.src [] 2 + BitVec.signExtend 64 (7 : BitVec 12)) 1 false :=
  ⟨⟨by decide, by decide⟩, rawAt_of (by decide), rawAt_of (by decide), rawAt_of (by decide), rawAt_of (by decide),
    deviceAt_of (by decide), deviceAt_of (by decide), deviceAt_of (by decide)⟩
theorem witness_StoresWriteTheirBytesOnly :
    let s := run [(1, spad + 0x2FFF8), (2, 0xFFFFFFFFF8)]
    s.LinksOk [1, 3] none ∧ s.RawAt (s.src [] 1 + BitVec.signExtend 64 (0 : BitVec 12)) 8 (2 ^ 53 + 0x2FFF8) true
      ∧ s.RawAt (s.src [] 1 + BitVec.signExtend 64 (0xFF8 : BitVec 12)) 4 (2 ^ 53 + 0x2FFF0) true
      ∧ (s.DeviceAt (s.src [] 2 + BitVec.signExtend 64 (0 : BitVec 12)) 8 true
        ∧ 0xFFFFFFFFF8 = (s.src [] 2 + BitVec.signExtend 64 (0 : BitVec 12)).toNat) :=
  ⟨⟨by decide, by decide⟩, rawAt_of (by decide), rawAt_of (by decide), deviceAt_of (by decide), by decide⟩
/-- A store through a raw alias window whose origin is not 0 lands where the window says (R211). -/
theorem witness_alias_window :
    let s := withSlot (run []) fun t => { t with wfmt := t.wfmt.set 1 0x1000000000 }
    s.LandsRaw 0xFE000000100008 8 (2 ^ 53 + 0x1008) :=
  .inr ⟨1, 8, by decide, by decide, by decide, by decide⟩
/-- A bit in 63:56; a misaligned address below it; the byte after the row of the scratchpad. -/
theorem witness_MisplacedAccessesTrap :
    let s := run [(1, 0x100000000000000), (2, 0xFFFFFFFFFFFFFF), (3, spad + 0x30000)]
    s.LinksOk [1] (some 4) ∧ s.LinksOk [1, 4] none
      ∧ 2 ^ 56 ≤ (s.src [] 1 + BitVec.signExtend 64 (0 : BitVec 12)).toNat
      ∧ ((s.src [] 2 + BitVec.signExtend 64 (0 : BitVec 12)).toNat < 2 ^ 56
        ∧ (s.src [] 2 + BitVec.signExtend 64 (0 : BitVec 12)).toNat % 2 ≠ 0)
      ∧ ((s.src [] 3 + BitVec.signExtend 64 (0 : BitVec 12)).toNat < 2 ^ 56
        ∧ (s.src [] 3 + BitVec.signExtend 64 (0 : BitVec 12)).toNat % 8 = 0
        ∧ locOf s.coreNo (s.src [] 3 + BitVec.signExtend 64 (0 : BitVec 12)) 8 = .bad) :=
  ⟨⟨by decide, by decide⟩, ⟨by decide, by decide⟩, by decide, by decide, by decide⟩
theorem witness_QuadStoresWriteThirtyTwoBytes :
    let s := run [(1, spad + 0x30000), (2, 0x10000000000)]
    s.LinksOk [1] none ∧ s.LinksOk [2] none
      ∧ s.RawAt (s.src [] 1 + BitVec.signExtend 64 (0x7FF : BitVec 11) * 32) 32 (2 ^ 53 + 0x2FFE0) true
      ∧ (s.DeviceAt (s.src [] 2 + BitVec.signExtend 64 (0x7FF : BitVec 11) * 32) 32 true
        ∧ 0xFFFFFFFFE0 = (s.src [] 2 + BitVec.signExtend 64 (0x7FF : BitVec 11) * 32).toNat)
      ∧ (28 : RegNo).toNat % 4 = 0 ∧ s.slot.lm = false ∧ (s.slot.getV 31).prog = none :=
  ⟨⟨by decide, by decide⟩, ⟨by decide, by decide⟩, rawAt_of (by decide), ⟨deviceAt_of (by decide), by decide⟩, by decide,
    by decide, by decide⟩
theorem witness_AtomicsReadAndWriteAtOneMoment :
    let s := run [(1, spad + 0x2FFF0)]
    s.RawAt (s.src [] 1) 4 (2 ^ 53 + 0x2FFF0) false ∧ s.RawAt (s.src [] 1) 8 (2 ^ 53 + 0x2FFF0) true
      ∧ s.RawAt (s.src [] 1) 8 (2 ^ 53 + 0x2FFF0) false ∧ s.RawAt (s.src [] 1) 4 (2 ^ 53 + 0x2FFF0) true
      ∧ s.outstanding 0xFFFF 6 = false ∧ s.LinksOk [1] (some 2) ∧ s.LinksOk [1, 2] none ∧ s.LinksOk [1, 2] (some 2)
      ∧ s.LinksOk [1] none ∧ (30 : RegNo).toNat % 2 = 0 :=
  ⟨rawAt_of (by decide), rawAt_of (by decide), rawAt_of (by decide), rawAt_of (by decide), by decide,
    ⟨by decide, by decide⟩, ⟨by decide, by decide⟩, ⟨by decide, by decide⟩, ⟨by decide, by decide⟩, by decide⟩
theorem witness_AtomicsReadAndWriteAtOneMoment_pairs :
    let s := run [(1, spad + 0x2FFF0)]
    s.RawAt (s.src [] 1) 16 (2 ^ 53 + 0x2FFF0) false ∧ s.RawAt (s.src [] 1) 16 (2 ^ 53 + 0x2FFF0) true
      ∧ s.outstanding 0xFFFF 0 = false ∧ s.LinksOk [1] none ∧ (28 : RegNo).toNat % 2 = 0 :=
  ⟨rawAt_of (by decide), rawAt_of (by decide), by decide, ⟨by decide, by decide⟩, by decide⟩
/-- Registers of no link in link mode; the scopes where the two times take over. -/
theorem witness_FencesWaitAndTakeInTime : linked.slot.lm = true ∧ (27 : RegNo).toNat < 28 ∧ 2 ≤ (2 : BitVec 3).toNat
    ∧ (4 : BitVec 3).toNat ≤ 4 ∧ ¬(5 : BitVec 3).toNat ≤ 4 := by decide


/-! ### What vector instructions do -/

/-- The two elements of a register at 64 bits. -/
def two (t : State) (r : RegNo) : Nat × Nat := (t.elem r 64 0, t.elem r 64 1)

theorem test_vadd_elements : after (exec (.vadd 3 1 2 0 0) (vec 2 [])) (two · 3) = some (8, 16) := by decide
theorem test_vsub_order : after (exec (.vsub 3 1 2 0 0) (vec 2 [])) (two · 3) = some (2, 2 ^ 64 - 2) := by decide
/-- Elements past VL, and inactive ones, keep their bits (R23). -/
theorem test_tail_is_kept : after (exec (.vmul 2 1 2 0 0) (vec 1 [])) (two · 2) = some (15, 9) := by decide
theorem test_mask_selects : after (exec (.vadd 3 1 2 4 0) (withSlot (vec 2 []) fun t => { t with v := t.v.set 4 { data := 2 ^ 64 } }))
    (two · 3) = some (0, 16) := by decide
theorem test_vdiv_by_zero : after (exec (.vdiv 3 1 4 0 0) (vec 2 [])) (two · 3) = some (2 ^ 63 - 1, 2 ^ 63 - 1) := by decide
theorem test_vmac_adds : after (exec (.vmac 2 1 2 0 0) (vec 2 [])) (two · 2) = some (18, 72) := by decide
theorem test_vclt_flags : after (exec (.vclt 3 1 2 0 0) (vec 2 [])) (fun t => (two t 3, t.slot.flags)) = some ((0, 1), 2) := by decide
theorem test_vrev : after (exec (.vrev 3 1 0) (vec 2 [])) (two · 3) = some (7, 5) := by decide
theorem test_vslide : after (exec (.vslide 3 1 9 0) (vec 2 [(9, 1)])) (two · 3) = some (7, 0) := by decide
theorem test_vcompress : after (exec (.vcompress 3 1 4) (withSlot (vec 2 []) fun t => { t with v := t.v.set 4 { data := 2 ^ 64 } }))
    (two · 3) = some (7, 0) := by decide
theorem test_vredsum : after (exec (.vredsum 3 1 0) (vec 2 [])) (two · 3) = some (12, 0) := by decide
theorem test_vgetx : after (exec (.vgetx 3 1 9) (vec 2 [(9, 1)])) (·.getX 3) = some 7 := by decide
theorem test_vid : after (exec (.vid 3 0) (vec 2 [])) (two · 3) = some (0, 1) := by decide
/-- e32, grouping 1, with s0: VL is VLMAX, 64 (R11, R133). -/
theorem test_vcfg : after (exec (.vcfg 3 0 0 5) (run [])) (fun t => (t.getX 3, t.slot.vl, t.slot.vill)) = some (64, 64, false)
    ∧ after (exec (.vcfg 3 0 0 7) (run [])) (fun t => (t.getX 3, t.slot.vl, t.slot.vill)) = some (0, 0, true) := by decide
theorem test_vill_traps : after (exec (.vadd 3 1 2 0 0) (run [])) (·.slot.st) = some .faulted := by decide
/-- f32 1.5 to e4m3: 0x3C (R33). -/
theorem test_vcvt : after (exec (.vcvt 3 1 4 0 0 0) (withSlot (run []) fun t =>
    { t with vill := false, vew := 5, vl := 1, v := t.v.set 1 { data := 0x3FC00000, tag := 1 } })) (fun t => t.elem 3 8 0)
      = some 0x3C := by decide
theorem test_vld_reads_elements :
    after (exec (.vld 3 9 0 0) { vec 2 [(9, spad)] with mem := [(2 ^ 53, 1), (2 ^ 53 + 8, 2)] }) (two · 3) = some (1, 2) := by decide
theorem test_vst_writes_elements : after (exec (.vst 1 9 0 0) (vec 2 [(9, spad)]))
    (fun t => (t.mem.read (2 ^ 53) 8, t.mem.read (2 ^ 53 + 8) 8)) = some (5, 7) := by decide

/-! ### Premises of the vector statements -/

/-- Registers of 32-bit elements: v1, v2 and v6 of tag `t`, v4 of tag `w`. -/
def vec32 (t w : BitVec 5) (l : List (RegNo × Dword)) : State :=
  withSlot (run l) fun z =>
    { z with vill := false, vew := 5, vl := 3
             v := (((z.v.set 1 { tag := t }).set 2 { tag := t }).set 6 { tag := t }).set 4 { tag := w } }

theorem witness_VectorWriteTouchesActiveElementsOnly : 0 < 64 ∧ tagMem 13 ≤ 64 ∧ 0 < (vec 32 []).lanes ∧ (vec 32 []).lanes ≤ 8
    ∧ (31 : RegNo).toNat + 1 ≤ 32 ∧ (List.range 32).Nodup := by decide
theorem witness_VectorArithmeticResults : (vec 32 []).VBinOk 3 1 2 4 0 ∧ VOp.div.accepts ((vec 32 []).vtag 1) = true
    ∧ (vec32 1 0 []).VBinOk 3 1 2 0 3 ∧ (vec32 1 0 []).vmode 3 = some .rsr ∧ (vec32 1 0 []).VBinOk 3 1 2 0 5 := by
  unfold State.VBinOk State.Groups; decide
/-- b1 elements take mul, min and max alone. -/
theorem witness_VectorArithmeticResults_bits : VOp.mul.accepts 21 = true ∧ VOp.max.accepts 21 = true ∧ VOp.add.accepts 21 = false := by
  decide
/-- vmac into a group of the widened tag, i32 to i64, and into one of the same tag. -/
theorem witness_VectorArithmeticResults_mac :
    (let s := vec32 14 13 []
     (s.vtag 1 ≠ s.vtag 4 && widens (s.vtag 1) (s.vtag 4)) = true ∧ s.Groups [1, 2] 0 ∧ groupOk 4 2 = true ∧ s.repOk 0 = true
      ∧ overlaps 4 2 1 s.gN = false ∧ overlaps 4 2 2 s.gN = false ∧ s.vtag 1 = s.vtag 2 ∧ tagReg (s.vtag 1) = s.ew
      ∧ s.vready [1, 4] 4 0 = true ∧ s.readable2 2 0 = true)
    ∧ (let s := vec32 1 1 []
     s.vtag 4 = s.vtag 1 ∧ s.Groups [1, 2] 0 ∧ groupOk 4 s.gN = true ∧ s.vready [1, 4] 4 0 = true ∧ s.vmode 1 = some .rne) := by
  unfold State.Groups; decide
theorem witness_VectorArithmeticResults_elements : (tagIsF 1 || tagIsT 1) = true ∧ (tagIsF 9 || tagIsT 9) = true
    ∧ ((tagIsI 18 || tagIsN 18) = true ∧ (tagIsF 18 || tagIsT 18 || tagIsB 18) = false) ∧ (tagIsI 20 || tagIsN 20) = true := by decide
theorem witness_VectorUnaryAndLogicResults : (vec 32 []).VUnOk 3 1 4 ∧ tagNotMx 13 = true ∧ tagInt 13 = true ∧ 2 ≤ tagMem 13
    ∧ (vec32 1 1 []).VUnOk 3 1 0 ∧ (vec32 1 1 []).vmode (BitVec.setWidth 3 (1 : BitVec 2)) = some .rne
    ∧ (vec 32 []).VBinOk 3 1 2 0 0 ∧ (tagIsI 13 || tagIsN 13) = true := by
  unfold State.VUnOk State.VBinOk State.Groups; decide
theorem witness_VectorComparesAndConversions : (vec32 1 1 []).VBinOk 3 1 2 0 0 ∧ VCmp.un.accepts 1 = true
    ∧ VCmp.tst.accepts 13 = true ∧ (vec32 1 1 []).rmode 0 = some .rne ∧ (vec32 1 1 []).Groups [1] 0
    ∧ groupOk 4 2 = true ∧ overlaps 4 2 1 1 = false ∧ tagReg 1 = (vec32 1 1 []).ew ∧ (vec32 1 1 []).vready [1] 4 0 = true := by
  unfold State.VBinOk State.Groups; decide
theorem witness_VectorMovementResults :
    (let s := vec 32 []
     s.VMoveOk 3 1 0 ∧ overlaps 3 s.gN 1 s.gN = false ∧ s.slot.lm = false ∧ groupOk 2 s.gN = true ∧ overlaps 3 s.gN 2 s.gN = false
      ∧ 8 ≤ s.ew ∧ s.readable 2 s.vlN = true ∧ s.VMoveOk 1 1 0 ∧ 16 ≤ s.ew)
    ∧ (let s := withSlot (vec 32 []) fun t => { t with v := t.v.set 1 { data := 0x7F, tag := 17 } }
     let n := ceilDiv (s.vlN * tagReg (s.vtag 1)) s.regBits
     s.Groups [3] 0 ∧ n ≤ 8 ∧ (1 : RegNo).toNat + n ≤ 32 ∧ overlaps 3 s.gN 1 n = false ∧ tagInt (s.vtag 1) = true
      ∧ tagReg (s.vtag 1) < s.ew ∧ s.vready [1] 3 0 = true) := by
  unfold State.VMoveOk State.Groups; decide
/-- Exact sums, f64 sums and integer sums. -/
theorem witness_VectorReductionResults : (vec32 1 1 []).VMoveOk 3 1 0 ∧ (vec32 1 1 []).rmode 7 = some .rne
    ∧ (let s := withSlot (vec 32 []) fun t => { t with v := t.v.set 1 { tag := 0 } }
       s.VMoveOk 3 1 0 ∧ s.vtag 1 = 0)
    ∧ (vec 0 []).VMoveOk 3 1 4 ∧ tagNotMx 13 = true ∧ tagInt 13 = true := by
  unfold State.VMoveOk State.Groups; decide
/-- The last element below VLMAX, and the first at it. -/
theorem witness_VectorConfigurationResults :
    let s := vec 32 [(9, 31), (10, 32)]
    s.slot.lm = false ∧ s.Groups [1] 0 ∧ tagReg (s.vtag 1) = s.ew ∧ (s.getX 9).toNat < s.vlmax
      ∧ s.readable 1 ((s.getX 9).toNat + 1) = true ∧ s.vlmax ≤ (s.getX 10).toNat ∧ s.writable 1 ((s.getX 9).toNat + 1) = true
      ∧ s.Groups [1] 4 ∧ s.vready [] 1 4 = true := by
  unfold State.Groups; decide
theorem witness_VectorChecksComeInOrder : (run []).slot.vill = true
    ∧ (let s := vec32 16 1 []
       s.Groups [3, 1] 0 ∧ tagReg (s.vtag 1) ≠ s.ew ∧ groupOk 2 s.gN = true ∧ s.repOk 0 = true) := by
  unfold State.Groups; decide

/-- Addresses of the four modes: base, base and stride, base and indices (v2), and lane slices. -/
def vmem (vl : BitVec 15) : State :=
  withSlot (vec vl [(9, spad + 0x2FFE0), (10, 16)]) fun t => { t with v := t.v.set 2 { data := 8 + 24 * 2 ^ 64 } }

theorem witness_VectorLoads_operands :
    (vmem 2).VMemOk 0 true 3 9 0 0 ∧ (vmem 2).VMemOk 1 true 3 9 10 4 ∧ (vmem 2).VMemOk 2 true 3 9 2 0 ∧ (vmem 2).VMemOk 3 true 3 0 2 0
      ∧ 0 < (vmem 2).lanes ∧ (vmem 2).lanes ≤ 8 ∧ (vmem 2).vlN ≤ (vmem 2).vlmax ∧ (vmem 2).actives 0 = [0, 1]
      ∧ (vmem 2).actives 4 = [] := by
  refine ⟨?_, ?_, ?_, ?_, ?_⟩ <;> first | decide | (unfold State.VMemOk State.Groups; decide)
/-- The last doublewords of the scratchpad's row, in each mode that has an address. -/
theorem witness_VectorLoadsFillTheActiveElements :
    (∀ i ∈ [0, 1], (vmem 2).RawAt ((vmem 2).elemAddr 0 9 0 i) 8 (2 ^ 53 + 0x2FFE0 + 8 * i) false)
      ∧ (∀ i ∈ [0, 1], (vmem 2).RawAt ((vmem 2).elemAddr 1 9 10 i) 8 (2 ^ 53 + 0x2FFE0 + 16 * i) false)
      ∧ (∀ i ∈ [0, 1], (vmem 2).RawAt ((vmem 2).elemAddr 2 9 2 i) 8 (2 ^ 53 + 0x2FFE8 + 16 * i) false)
      ∧ (∀ i ∈ [0, 1], (vmem 2).laneOff 0 2 i % 8 = 0) :=
  ⟨rawAt_all (by decide), rawAt_all (by decide), rawAt_all (by decide), by decide⟩
/-- Elements below 8 bits: eight of one bit, in one byte. -/
theorem witness_VectorLoads_bits :
    let s := withSlot (vec 8 [(9, spad)]) fun t => { t with vew := 0 }
    (∀ i ∈ List.range 8, s.RawAt (s.elemAddr 0 9 0 i) 1 (2 ^ 53) false) ∧ s.VMemOk 0 true 3 9 0 0 ∧ s.actives 0 = List.range 8 :=
  ⟨rawAt_all (by decide), by unfold State.VMemOk State.Groups; decide, by decide⟩
theorem witness_VectorStoresWriteTheActiveElements :
    ((vmem 2).VMemOk 0 false 1 9 0 0 ∧ (vmem 2).VMemOk 1 false 1 9 10 0 ∧ (vmem 2).VMemOk 2 false 1 9 2 0
        ∧ (vmem 2).VMemOk 3 false 1 0 2 0)
      ∧ (∀ i ∈ [0, 1], (vmem 2).RawAt ((vmem 2).elemAddr 0 9 0 i) 8 (2 ^ 53 + 0x2FFE0 + 8 * i) true)
      ∧ (∀ i ∈ [0, 1], (vmem 2).RawAt ((vmem 2).elemAddr 1 9 10 i) 8 (2 ^ 53 + 0x2FFE0 + 16 * i) true)
      ∧ (∀ i ∈ [0, 1], (vmem 2).RawAt ((vmem 2).elemAddr 2 9 2 i) 8 (2 ^ 53 + 0x2FFE8 + 16 * i) true) :=
  ⟨by refine ⟨?_, ?_, ?_, ?_⟩ <;> (unfold State.VMemOk State.Groups; decide), rawAt_all (by decide), rawAt_all (by decide),
    rawAt_all (by decide)⟩

/-- Two addresses in v4, one of them 0 where `one` says so, with operands in v6 and v7. -/
def vatom (one : Bool) : State :=
  withSlot (vec 2 []) fun t =>
    { t with v := (t.v.set 4 { data := BitVec.ofNat 2048 (spad.toNat + if one then 0 else (spad.toNat + 8) * 2 ^ 64) }).set 6
               { data := 3 } }

theorem witness_VectorAtomicsActInElementOrder :
    ([true, false].all fun one =>
      let s := vatom one
      !s.slot.vill && s.ew = 64 && groupOk 4 s.gN && s.complete 4 && s.slot.restart = none && 0 < s.lanes && s.lanes ≤ 8
        && s.vlN ≤ s.vlmax && !s.outstanding 0xFFFF 0 && groupOk 6 (2 * s.gN) && !overlaps 4 s.gN 6 (2 * s.gN)
        && s.writable 6 s.vlN && s.readable 6 s.vlN && s.readable 7 s.vlN) = true
      ∧ ((List.range 2).filter fun i => (vatom true).elem 4 64 i ≠ 0) = [0]
      ∧ ((List.range 2).filter fun i => (vatom false).elem 4 64 i ≠ 0) = [0, 1]
      ∧ (([0, 1] : List Nat).map fun i => (vatom false).elem 4 64 i).Nodup := by decide
theorem witness_VectorAtomics_addresses :
    (∀ i ∈ [0, 1], (vatom false).RawAt (BitVec.ofNat 64 ((vatom false).elem 4 64 i)) 8 (2 ^ 53 + 8 * i) false)
      ∧ (∀ i ∈ [0, 1], (vatom false).RawAt (BitVec.ofNat 64 ((vatom false).elem 4 64 i)) 8 (2 ^ 53 + 8 * i) true) :=
  ⟨rawAt_all (by decide), rawAt_all (by decide)⟩
theorem test_vamo_single : after (exec (.vamoAdd 6 4 0 0 0 0 1) { vatom true with mem := [(2 ^ 53, 9)] })
    (fun t => (t.elem 6 64 0, t.mem.read (2 ^ 53) 8)) = some (9, 12) := by decide


/-! ### Tasks, waits and barriers -/

/-- Region 2, a root whose RCB stands at 0x8000, and a queue 5 of two entries that admits depth 4. -/
def region2 : Region := { handle := 2, parent := 0, rcb := 0x8000, budget := 4, weight := 1, mode := 1 }
def queue5 : Queue := { num := 5, region := 2, cap := 2, maxdepth := 4, win := true }

/-- A task of region 2 from queue 5, at depth 3. -/
def task (l : List (RegNo × Dword)) : State :=
  { withSlot (run l) fun t => { t with tinfo := 0x0000000200050300 } with regions := [region2], queues := [queue5] }

/-- A member of a team of two slots, of cores 0 and 1: member 1. -/
def team2 : Team := { die := 0, clus := 0, ctx := 3, region := 2, teamno := 7, recPc := 0x4000, queue := 5, size := 2, slots := [8, 0] }
def member (l : List (RegNo × Dword)) : State :=
  { withSlot (task l) fun t => { t with team := 0x0000000780010301 } with teams := [team2] }

/-- A record image at the start of the scratchpad: PC 0x4000, a team of two members where `team` says so. -/
def withRec (s : State) (team : Bool) : State :=
  let v := 0x4000 + if team then 2 ^ 57 + 2 ^ (56 * 8 + 32) else 0
  { s with mem := s.mem.write (2 ^ 53) 64 v }

theorem test_emit_enqueues : after (exec (.emit 4 1 2) (withRec (task [(1, spad), (2, 5), (4, 77)]) false))
    (fun t => (t.queues.flatMap Queue.entries).map fun r => (r.pc, r.key, r.depth, r.region)) = some [(0x4000, 77, 4, 2)] := by decide
theorem test_emit_to_no_queue : after (exec (.emit 0 1 2) (withRec (task [(1, spad), (2, 6)]) false)) (·.slot.st) = some .faulted := by
  decide
theorem test_suspend_leaves : after (exec (.suspend 0 1 2) (withRec (task [(1, spad), (2, 5)]) false))
    (fun t => (t.slot.st, (t.queues.flatMap Queue.entries).map Rec.depth)) = some (.retiring, [3]) := by decide
/-- done counts in RETIRED, at 0x40 of the RCB. -/
theorem test_done_counts : after (exec .done (task [])) (fun t => (t.slot.st, t.mem.read 0x8040 8)) = some (.retiring, 1) := by decide
theorem test_bar_arrive : after (exec (.barArrive 5 1) (member []))
    (fun t => (t.getX 5, t.teams.map fun k => ((k.bar 1).ph, (k.bar 1).count))) = some (0, [(0, 1)]) := by decide
theorem test_waita_parks : after (exec (.waita 5 1 2 1 0) (run [(1, spad), (2, 9)])) (·.slot.st) = some .parked
    ∧ after (exec (.waita 5 1 2 1 0) { run [(1, spad), (2, 9)] with mem := [(2 ^ 53, 9)] }) (·.getX 5) = some 9 := by decide
theorem test_lkcount : after (exec (.lkcount 5 0) { linked with slot := { linked.slot with lm := false } }) (·.getX 5)
    = some 0x100002 := by decide

theorem witness_RecordsGoToTheirQueues_emit :
    let s := withRec (task [(1, spad), (2, 5)]) false
    s.slot.lm = false ∧ queue5.room = true ∧ s.emitQueue (s.getX 2).toNat = some queue5
      ∧ (Rec.ofNat (s.mem.read (2 ^ 53) 64)).reservedSet = false ∧ fld (Rec.ofNat (s.mem.read (2 ^ 53) 64)).w0 0 2 = (0 : BitVec 2)
      ∧ s.outstanding 0xFFFF 5 = false ∧ s.slot.taskDepth + 1 ≤ queue5.maxdepth.toNat ∧ s.slot.taskDepth ≤ queue5.maxdepth.toNat
      ∧ s.liveCmds s.slotNo = false ∧ s.slot.packets = 0 ∧ s.slot.loop = false ∧ s.offDie queue5 = false
      ∧ s.emitQueue s.slot.taskQueue = some queue5 := by decide
theorem witness_RecordsGoToTheirQueues_image :
    (withRec (task [(1, spad), (2, 5)]) false).RawAt ((withRec (task [(1, spad), (2, 5)]) false).getX 1) 64 (2 ^ 53) false :=
  rawAt_of (by decide)
theorem witness_RecordsGoToTheirQueues_launch :
    let s := withRec (task [(1, spad), (2, 5), (6, 1)]) true
    fld (s.getX 2) 9 55 = (0 : BitVec 55) ∧ (Rec.ofNat (s.mem.read (2 ^ 53) 64)).team = true ∧ fld (s.getX 6) 0 32 = (1 : BitVec 32)
      ∧ s.launchQueue (s.getX 2).toNat (fld (s.getX 6) 32 32 : BitVec 32).toNat = some queue5 ∧ s.region queue5.region = some region2
      ∧ (Rec.ofNat (s.mem.read (2 ^ 53) 64)).teamSize ≤ region2.budget.toNat
      ∧ (Rec.ofNat (s.mem.read (2 ^ 53) 64)).reservedSet = false := by decide
theorem witness_DoneRetiresTheTask : (task []).slot.loop = false ∧ (task []).liveCmds (task []).slotNo = false
    ∧ (task []).slot.packets = 0
    ∧ (let s' := (task []).bump (task []).slot.regionH ctrRetired 1
       s'.teamOf (task []).slotNo (task []).slot = none)
    ∧ ((member []).bump (member []).slot.regionH ctrRetired 1).teamOf (member []).slotNo (member []).slot = some team2
    ∧ (let s := withSlot (task []) fun t => { t with st := .retiring }
       (s.getSlot s.arg.n).st = .retiring ∧ s.teamOf s.arg.n (s.getSlot s.arg.n) = none)
    ∧ (let s := withSlot (member []) fun t => { t with st := .retiring }
       (s.getSlot s.arg.n).st = .retiring ∧ s.teamOf s.arg.n (s.getSlot s.arg.n) = some team2) := by decide
theorem witness_WaitsBarriersAndLinkStatus : (run [(1, spad)]).RawAt ((run [(1, spad)]).getX 1) 8 (2 ^ 53) false
    ∧ (vatom false).slot.vill = false ∧ (vatom false).ew = 64 ∧ groupOk 4 (vatom false).gN = true ∧ (vatom false).maskOk 6 = true
    ∧ (vatom false).readable 4 (vatom false).vlN = true ∧ (vatom false).readable 6 (vatom false).vlN = true
    ∧ (vatom false).actives 6 = [0] ∧ (vatom false).actives 0 = [0, 1] ∧ (3 : BitVec 5).toNat < 4 :=
  ⟨rawAt_of (by decide), by decide, by decide, by decide, by decide, by decide, by decide, by decide, by decide, by decide⟩
/-- An arrival that is not the last, and the last one, of a member whose bit is clear, at the last barrier. -/
theorem witness_WaitsBarriers_team :
    let last := { member [] with teams := [{ team2 with bars := team2.bars.set 15 { ph := 4, count := 1, arrived := 1 } }] }
    (member []).teamOf (member []).slotNo (member []).slot = some team2 ∧ (15 : RegNo).toNat < 16
      ∧ (member []).outstanding 0xFFFF 3 = false ∧ (team2.bar 15).arrived.getLsbD (member []).slot.member = false
      ∧ (member []).slot.arrTok = none ∧ (member []).slot.inTeam = true
      ∧ ((last.teamOf last.slotNo last.slot).any fun k =>
        (k.bar 15).count + 1 = k.size && !(k.bar 15).arrived.getLsbD last.slot.member) = true := by decide
theorem witness_ParkedSlotsGoOn :
    let parked (s : State) (p : Park) : State := withSlot s fun t => { t with st := .parked, park := p }
    let gone := { member [] with teams := [{ team2 with bars := team2.bars.set 1 { ph := 5 } }] }
    let q := { queue5 with waiters := [.slot 0] }
    let s := { parked (task []) .queue with queues := [q] }
    (parked (run []) .wait).slot.park = .wait ∧ (parked linked (.link [1] [2])).slot.park = .link [1] [2]
      ∧ (parked gone (.barrier 1 4 true)).barrierMet 0 (parked gone (.barrier 1 4 true)).slot = true
      ∧ (let s := withSlot s fun t => { t with recd := some {}, recQ := 5 }
         s.slot.recd = some {} ∧ s.queue s.slot.recQ.toNat = some q ∧ q.canResume (.slot s.slotNo) = true ∧ s.slot.launch = none) := by
  decide

/-! ### Ranges, shapes, bits and cells -/

/-- A descriptor at the scratchpad's start: base 0x1000, 128 bytes, and the format word. -/
def withRange (fmt : Dword) : State :=
  { run [(1, spad)] with mem := Memory.write (Memory.write [] (2 ^ 53) 8 0x1000) (2 ^ 53 + 8) 16 (128 + fmt.toNat * 2 ^ 64) }

theorem witness_RangesAreDeclaredAndDropped :
    let s := withRange 14
    let w (i : Nat) : Dword := BitVec.ofNat 64 (s.mem.read (2 ^ 53) 32 / 2 ^ (64 * i))
    s.slot.lm = false ∧ s.outstanding 0xFFFF 5 = false ∧ s.slot.mode = 2 ∧ rangeCode (w 0) (w 1) (w 2) (w 3) = 0
      ∧ (w 0).toNat % 4096 + (w 1).toNat ≤ 4096 ∧ (w 0).toNat < 2 ^ 40 ∧ s.touchesRange (w 0).toNat (w 1).toNat = false
      ∧ (∀ l ∈ ({ pa := (w 0).toNat, off := 0, len := (w 1).toNat } : Run).lines, s.poisoned l = false ∧ s.hostHolds l true = false) := by
  decide
theorem witness_Ranges_image : (withRange 14).RawAt ((withRange 14).getX 1) 32 (2 ^ 53) false := rawAt_of (by decide)

/-- A declared range of two i32 elements. -/
def ranged (l : List (RegNo × Dword)) : State :=
  { run l with ranges := [{ runs := [{ pa := 0x1000, off := 0, len := 64 }], rm := 0, op := 0, fmt := 14, parts := List.replicate 16 {}, ucopies := [] }] }

/-- The base of a range, and the last line of device memory, where none is. -/
theorem witness_Ranges_drop :
    let s := ranged [(1, 0x1000), (2, 0xFFFFFFFFC0)]
    (s.getX 1).toNat < 2 ^ 40 ∧ (s.getX 1).toNat % 64 = 0
      ∧ ((s.ranges.find? (fun r => r.base = (s.getX 1).toNat)).any fun r =>
          r.lineOffs.all fun p => !s.poisoned p.1 && !s.hostHolds p.1 true) = true
      ∧ (s.getX 2).toNat < 2 ^ 40 ∧ (s.getX 2).toNat % 64 = 0 ∧ s.ranges.find? (fun r => r.base = (s.getX 2).toNat) = none := by decide

/-- A dense shape record of 16 f32 elements at the scratchpad's start (R228). -/
def shapeImage : BitVec 768 := BitVec.ofNat 768 (0x1000 * 8 + 1 * 2 ^ 64)

theorem witness_ShapeRecords_handles :
    let s : State := { run [(1, 3 + 5 * 1024)] with shapes := [(3, { seq := 5, live := true, addr := spad, image := shapeImage })] }
    (s.shapeOf (clusOfCore s.coreNo) (s.getX 1)).isSome = true ∧ s.ownBusy (s.getX 1) = false
      ∧ s.shapeOf (clusOfCore s.coreNo) (s.getX 2) = none ∧ s.freeShape (clusOfCore s.coreNo) = some 0 := by decide
theorem witness_ShapeRecords_image :
    let s := run [(1, spad)]
    s.RawAt (s.getX 1) 32 (2 ^ 53) false ∧ s.RawAt (s.getX 1 + 32) 32 (2 ^ 53 + 32) false
      ∧ s.RawAt (s.getX 1 + 64) 32 (2 ^ 53 + 64) false :=
  ⟨rawAt_of (by decide), rawAt_of (by decide), rawAt_of (by decide)⟩

/-- Three bits at bit 61 of a doubleword, the last that fit in it. -/
theorem witness_BitFieldStoreChangesItsBits :
    let s := run [(1, spad), (3, 2 + 61 * 256)]
    let va := s.getX 1 + BitVec.ofInt 64 ((fld (s.getX 3) 8 56 : BitVec 56).toInt / 8)
    let b := ((fld (s.getX 3) 8 56 : BitVec 56).toInt % 8).toNat
    let w := (s.getX 3).toNat % 64 + 1
    let n := (b + w - 1) / 8 + 1
    s.slot.lm = false ∧ fld va 56 8 = (0 : BitVec 8) ∧ va.toNat / 8 = (va + BitVec.ofNat 64 ((b + w - 1) / 8)).toNat / 8
      ∧ locOf s.coreNo va n = .raw (2 ^ 53 + 7) ∧ s.interlocked s.ctx (2 ^ 53 + 7) n true true = false := by decide
theorem test_st_bits : after (exec (.stBits 2 1 3) { run [(1, spad), (2, 5), (3, 2 + 61 * 256)] with mem := [(2 ^ 53 + 7, 0x5F)] })
    (fun t => t.mem.get (2 ^ 53 + 7)) = some 0xBF := by decide

/-- An image of each state: no cell, EMPTY, DECIDED, RECYCLING, of generation 9. -/
theorem witness_CellOperationsFollowTheirTable : cellState (cellImage 3 0 9 0) = 3 ∧ cellState (cellImage 0 0 9 0) = 0
    ∧ cellState (cellImage 1 0 9 0) = 1 ∧ cellState (cellImage 2 0 9 0) = 2 ∧ cellGen (cellImage 1 0 9 0) = 9
    ∧ fld (cellImage 1 0 9 0) 122 6 = (0 : BitVec 6) ∧ ((9 : BitVec 32) - 10).toNat ≥ 2 ^ 31 := by decide
theorem witness_CellFormsActAtTheHome :
    let s := run [(2, 9 + 5 * 2 ^ 32), (4, 0xFFFFFFFFF0), (5, 77)]
    s.slot.lm = false ∧ fld (s.getX 2) 35 29 = (0 : BitVec 29) ∧ (fld (s.getX 2) 32 3 : BitVec 3).toNat < 7 ∧ s.slot.mode = 2
      ∧ (s.getX 4).toNat < 2 ^ 40 ∧ (s.getX 4).toNat % 16 = 0 ∧ s.poisoned ((s.getX 4).toNat / 64) = false
      ∧ (∀ wr, s.hostHolds ((s.getX 4).toNat / 64) wr = false) ∧ s.touchesRange (s.getX 4).toNat 16 = false
      ∧ s.cellCopy s.dieNo (s.getX 4).toNat (fld (s.getX 2) 0 32) = none ∧ (2 : RegNo).toNat % 2 = 0 ∧ (2 : RegNo) ≠ 0
      ∧ s.outstanding 0xFFFF (fld (s.getX 2) 32 3 : BitVec 3).toNat = false := by decide
theorem witness_CellForms_release :
    let p : PendRecycle := { pa := 0x40, slot := 0, gen := 9, cmds := [], peer := false, packets := false }
    let s : State := { run [] with recycles := [p], arg := { pa := 0x40 } }
    s.recycles.find? (fun q => decide (q.pa = s.arg.pa) && s.recycleDone q) = some p ∧ s.phys p.pa = .device := by decide
/-- Proposing to an empty cell of generation 0 wins: value 77, status 0 and generation 0 (R418, R424). -/
theorem test_cell_propose : after (exec (.cellPropose 2 4 5) (run [(4, 0x40), (5, 77)])) (fun t => (t.getX 2, t.getX 3, t.mem.read 0x40 8))
    = some (77, 0x100000000000000, 77) := by decide

/-! ### Peers and packets -/

theorem witness_PeerEnqueue_penq :
    let s := withRec (task [(1, spad), (3, 5)]) false
    s.slot.lm = false ∧ fld (s.getX 3) 12 4 = (0 : BitVec 4) ∧ fld (s.getX 3) 22 42 = (0 : BitVec 42)
      ∧ fld (s.getX 3) 16 6 = s.nasum.modNo ∧ (Rec.ofNat (s.mem.read (2 ^ 53) 64)).reservedSet = false
      ∧ s.slot.taskDepth < 255 ∧ s.outstanding 0xFFFF 6 = false := by decide
theorem witness_PeerEnqueue_replies :
    let s := withSlot (run []) fun t => { t with st := .parked, park := .penq 0 true }
    (s.getSlot s.arg.n).inPenq = true ∧ (s.getSlot s.arg.n).st = .parked ∧ (s.getSlot s.arg.n).park = .penq 0 true
      ∧ 0 + 2 ^ 24 ≤ ({ s with cycle := 2 ^ 24 } : State).cycle := by decide
theorem witness_PeerEnqueue_windows :
    let s : State := { task [] with arg := { q := 5, data := List.replicate 64 0 } }
    let full := { queue5 with cap := 0 }
    let v := Rec.ofNat (natOfBytes s.arg.data)
    s.arg.pa = 0 ∧ s.arg.data.length = 64 ∧ s.queue s.arg.q.toNat = some queue5 ∧ queue5.win = true ∧ queue5.room = true
      ∧ v.depth.toNat ≤ queue5.maxdepth.toNat ∧ v.reservedSet = false ∧ fld v.w0 0 2 = (0 : BitVec 2)
      ∧ full.room = false ∧ ({ s with queues := [] } : State).queue 5 = none := by decide
theorem witness_RemoteReduce_vrred :
    let s := withSlot (vec32 14 14 [(9, 0x1000)]) fun t => { t with er := (t.er.set 3 (t.er[3].set 7 0x7F)) }
    let sc := (s.slot.er[3]).toList.getD (4 + (3 : RegNo).toNat) 0
    s.slot.lm = false ∧ s.Groups [1] 0 ∧ tagReg (s.vtag 1) = s.ew ∧ tagIsMx (s.vtag 1) = false ∧ tagIsB (s.vtag 1) = false
      ∧ fld sc 16 48 = (0 : BitVec 48) ∧ s.readable 1 s.vlN = true ∧ s.slot.mode = 2 ∧ (s.getX 9).toNat < 2 ^ 40
:= by
  unfold State.Groups; decide
theorem witness_RemoteReduce_packet :
    let s : State := { ranged [] with arg := { red := { pa := 0x1000, tag := 14, vl := 1, elems := [(0, 5)] } } }
    ((s.rangeAt s.arg.red.pa).any fun r =>
      (r.offOf s.arg.red.pa).getD 0 * 8 % max 1 r.ebits = 0 && s.packetElem s.arg.red r 0 = some 0
        && !s.hostHolds ((s.arg.red.pa + 0 * r.ebits / 8) / 64) true) = true
    ∧ (run []).rangeAt 0x1000 = none := by decide
theorem witness_RemoteReduce_peer :
    let s : State := { run [] with nasum := { (run []).nasum with route := (Vector.replicate 64 0xFF).set 9 2, ports := 4 } }
    (9 : BitVec 6) ≠ s.nasum.modNo ∧ s.noRoute 9 = false ∧ s.poisoned 0 = false ∧ s.hostHolds 0 false = false ∧ s.hostHolds 0 true = false
      ∧ s.rangeAt 0 = none := by decide
theorem test_peer_store : after (exec .peerAccessPacket { run [] with arg := { peer := { pa := 0x40, op := .store [1, 2] } } })
    (fun t => t.mem) = some [(0x40, 1), (0x41, 2)] := by decide


/-! ### Engines -/

/-- A result that is there. -/
def okR {α : Type} : Res α → Bool
  | .ok _ _ => true
  | _ => false

/-- Engine registers set: engine, index, value. -/
def ereg (l : List (Nat × Nat × Dword)) (s : State) : State :=
  withSlot s fun t => l.foldl (fun t p => t.setEreg p.1 p.2.1 p.2.2) t

/-- A dense shape of `n` i32 elements at an address (R228). -/
def dense (base : Dword) (n : Nat) : BitVec 768 := BitVec.ofNat 768 (base.toNat + 368 * 2 ^ 64 + n * 2 ^ 128 + 32 * 2 ^ 256)

/-- Two live shapes of two elements: entry 0 at the scratchpad's start, entry 1 `gap` bytes on. -/
def shaped (gap : Dword) (s : State) : State :=
  { s with shapes := [(0, { live := true, image := dense spad 2 }), (1, { live := true, image := dense (spad + gap) 2 })] }

theorem witness_ShapeRecords_valid : shapeCode (dense 0x1000 16) = 0 ∧ shapeCode (dense 0x1000 0) ≠ 0 := by decide
theorem witness_ShapeRecords_seal :
    let s : State := { run [(1, spad)] with mem := Memory.write [] (2 ^ 53) 96 (dense 0x1000 16).toNat }
    let img : BitVec 768 := BitVec.ofNat 768 (s.mem.read (2 ^ 53) 32 + s.mem.read (2 ^ 53 + 32) 32 * 2 ^ 256
      + s.mem.read (2 ^ 53 + 64) 32 * 2 ^ 512)
    shapeCode img = 0 ∧ s.freeShape (clusOfCore s.coreNo) = some 0 := by decide

theorem witness_EngineInstructions_copy :
    let s := shaped 0x100 (ereg [(0, 8, 0x100000000), (0, 11, 1)] (run []))
    s.slot.ereg 0 2 = 0 ∧ s.namesLink [1, 2] = false
      ∧ ([(fld (s.slot.ereg 0 8) 0 32 : BitVec 32).setWidth 64, (fld (s.slot.ereg 0 8) 32 32 : BitVec 32).setWidth 64] : List Dword).all
          (fun h => (s.shapeOf (clusOfCore s.coreNo) h).isSome) = true
      ∧ copyCommonOk (s.slot.ereg 0 11) (s.slot.ereg 0 12) = true
      ∧ romCopyOk (dense spad 2) (dense (spad + 0x100) 2) (s.slot.ereg 0 9) (s.slot.ereg 0 10) (s.slot.ereg 0 11) = true
      ∧ copyCommonOk 15 0 = true := by decide
/-- A completion word at the last doubleword that one may name. -/
theorem witness_EngineInstructions_completion : (ereg [(0, 2, spad + 0x2FFF8)] (run [])).CwaOk 0 := ⟨by decide, .inr (by decide)⟩
theorem witness_EngineInstructions_stream :
    let s := shaped 0x100 (vec32 14 14 [])
    s.slot.ereg 2 2 = 0 ∧ s.namesLink [1] = false ∧ s.slot.vill = false ∧ fld (s.slot.ereg 2 4) 32 32 = (0 : BitVec 32)
      ∧ fld (s.slot.ereg 2 5) 32 32 = (0 : BitVec 32) ∧ groupOk 8 s.gN = true ∧ tagReg (finalTag (dense spad 2)) = s.ew
      ∧ (s.shapeOf (clusOfCore s.coreNo) 0).isSome = true
      ∧ lookupsOk (shapeFmt (dense spad 2)) (shapeXfs (dense spad 2)) = true ∧ s.writable 8 s.vlN = true := by decide

/-- Plane operands of e4m3 through window 1, one step, f32 in and out. -/
def plane : State :=
  withSlot (ereg [(3, 16, 1), (3, 17, 1), (3, 18, 128), (3, 19, 0x40_0000_E021), (3, 20, spad)] (run [])) fun t =>
    { t with wfmt := t.wfmt.set 1 0x402 }

theorem witness_EngineInstructions_plane :
    let m := plane.planeCmd
    plane.slot.ereg 3 2 = 0 ∧ m.operandsOk = true ∧ cdOk (plane.slot.ereg 3 19) (plane.slot.ereg 3 20) (cfmtCtag (plane.slot.ereg 3 19)) = true
      ∧ cdOk (plane.slot.ereg 3 19) (plane.slot.ereg 3 20) (cfmtDtag (plane.slot.ereg 3 19)) = true ∧ m.kext ≠ 0
      ∧ (fld (plane.slot.ereg 3 22) 0 32 : BitVec 32).toNat < m.ns ∧ m.tagA ≠ 0 ∧ m.storeMode < 6
      ∧ fld (m.sc.toList.getD (cfmtSc (plane.slot.ereg 3 19)) 0) 16 48 = (0 : BitVec 48) := by decide

/-- A chain of `n` pattern entries with the boundary's DATA live where `live` says so. -/
def chain (n : Dword) (live : Dword) : State :=
  ereg [(4, 4, spad), (4, 5, n <<< 16), (4, 6, spad + 0x100), (4, 7, 64), (4, 9, 4), (4, 10, 0x4000000000), (4, 11, 0x10001),
    (4, 12, 0x100001), (4, 13, live), (4, 32, 1)] (run [])

theorem witness_EngineInstructions_chain : (chain 1 0).slot.ereg 4 2 = 0 ∧ ((chain 1 0).capturedCmd 4).chainOk = true := by decide
theorem witness_EngineInstructions_graphics :
    let s := ereg [(5, 4, spad), (5, 5, 0x4000), (5, 6, 2)] (run [])
    s.slot.ereg 5 2 = 0 ∧ gxPrimOk (s.slot.ereg 5 5) (s.slot.ereg 5 6) (s.slot.ereg 5 7) (s.slot.ereg 5 8) = true
      ∧ s.binnerQueue s.dieNo = [] ∧ (s.die s.dieNo).gfx.canClose = true ∧ fld (s.slot.ereg 5 4) 0 6 = (0 : BitVec 6)
      ∧ fld (s.slot.ereg 5 4) 56 8 = (0 : BitVec 8) ∧ locOf s.coreNo (s.slot.ereg 5 4) 64 = .raw (2 ^ 53)
      ∧ (GState.mk (Vector.ofFn fun i => BitVec.ofNat 64 (s.mem.read (2 ^ 53) 64 / 2 ^ (64 * i.val))) s.slotNo (s.rootOf s.slot)
          s.slot.mode).ok = true
      ∧ ({} : GState).flushes { w := (Vector.replicate 8 0).set 0 0x1000 } = true := by decide

/-- A tile of an 8 by 8 target at 0x10000, of 4 bytes a pixel, with one task that has been emitted. -/
def target : GState := { w := ((Vector.replicate 8 0).set 0 0x10000).set 1 0x0000000800080020 }
def pixelTask : ShadeTask :=
  { trans := false, prim := { w := Vector.replicate 8 0, opc := 0, tpc := 0, oq := 5, tq := 5 }, ticket := 0, record := {}, queue := 5,
    mask := 1, emitted := true }
def tile : TileRun := { batch := 0, st := target, tx := 0, ty := 0, prims := [], slot := some 0, final := true, tasks := [pixelTask] }
def drawn (t : TileRun) (s : State) : State := s.modGfx 0 fun g => { g with tiles := [t] }

theorem witness_EngineInstructions_commit :
    let s := drawn tile (withSlot (run []) fun t => { t with vill := false, vew := 3, v := t.v.set 8 { tag := 19 } })
    s.slot.ereg 5 2 = 0 ∧ s.namesLink [1, 2] = false ∧ s.slot.vill = false ∧ s.ew = 8 ∧ groupOk 8 s.gN = true
      ∧ 4 * rateCount (fld (s.getX 1) 32 3) * s.ew ≤ s.regBits * s.gN ∧ s.vtag 8 = 19
      ∧ s.commitTask s.dieNo (s.getX 1) (s.getX 2) = some (tile, pixelTask) ∧ s.committed pixelTask = false
      ∧ s.readable 8 (4 * rateCount (fld (s.getX 1) 32 3)) = true ∧ (s.slot.getV 8).rdp = none := by decide
theorem witness_EngineInstructions_build :
    let s := ereg [(6, 4, spad), (6, 5, 2), (6, 6, spad + 0x1000), (6, 7, spad + 0x2000), (6, 8, spad + 0x3000)] (run [])
    s.slot.ereg 6 2 = 0 ∧ (s.capturedCmd 6).bvOk = true := by decide
/-- Commands issued are counted in the upper half of ESTAT (R271). -/
theorem test_issue_counts : after (exec (.peClear 0 0) (run [])) (fun t => (t.cmds.length, t.slot.ereg 3 1)) = some (1, 0x10000) := by decide

theorem witness_EngineRegistersAndStageBarriers : (run []).slot.lm = false ∧ eregRo 0 8 = false ∧ eregRo 0 1 = true
    ∧ fld (5 : Dword) 7 57 = (0 : BitVec 57) ∧ (fld (5 : Dword) 4 3 : BitVec 3) ≠ 7
    ∧ ((run [(1, 0xFFFFFFFF)]).getX 1).toNat < 2 ^ 32 ∧ ((run []).sbar 15).st = .idle
    ∧ (let s := run [(1, 1)]
       let s := s.setSbar s.coreNo 3 { st := .opened, expect := 0xFFFFFFFE, got := 0xFFFFFFFF }
       (s.sbar 3).st ≠ .overshoot ∧ (s.sbar 3).expect.toNat + (s.getX 1).toNat < 2 ^ 32)
    ∧ ((run []).setSbar (run []).coreNo 3 { st := .overshoot }).sbar 3 = { st := .overshoot }
    ∧ (withSlot (run []) fun t => { t with st := .parked, park := .stageGo true 0 }).slot.park = .stageGo true 0
    ∧ (withSlot (run []) fun t => { t with st := .parked, park := .stageGo false 4 }).slot.park = .stageGo false 4 := by decide
theorem test_sb_arm : after (exec (.sbArm 1 3) (run [(1, 0)])) (fun t => (t.sbar 3).st) = some .done
    ∧ after (exec (.sbArm 1 3) (run [(1, 9)])) (fun t => ((t.sbar 3).st, (t.sbar 3).expect)) = some (.opened, 9) := by decide

/-- A state with one command, which the event names. -/
def withCmd (m : Cmd) (s : State) : State := { s with cmds := [m], arg := { c := m.id } }

/-- A copy between two shapes, apart or overlapping. -/
def copying (gap : Dword) : State :=
  withCmd { id := 4, slot := 0, eng := 0, word := 0xA000AE80, er := ((Vector.replicate 64 0).set 8 0x100000000).set 11 1 }
    (shaped gap { run [] with mem := [(2 ^ 53, 7), (2 ^ 53 + 4, 9)] })

theorem test_copy_moves : after (exec .mqCopyPiece (copying 0x100)) (fun t =>
    (t.mem.read (2 ^ 53 + 0x100) 8, t.cmds.map Cmd.finished)) = some (9 * 2 ^ 32 + 7, [true]) := by decide
/-- An overlapping copy writes the source as it stood (R275). -/
theorem test_copy_overlap : after (exec .mqCopyPiece (copying 4)) (fun t => t.mem.read (2 ^ 53) 12) = some (9 * 2 ^ 64 + 7 * 2 ^ 32 + 7) := by
  decide
theorem witness_CopiesAndStreamLoads_copy :
    let go (s : State) : Bool := match s.cmd s.arg.c with
      | none => false
      | some m =>
        let c := s.ctxCmd m
        let j := s.copyJob m
        m.eng = 0 && !m.finished && !s.outOfTurn c && copyProg (m.reg 11) = 1
          && (match j.pieces[s.arg.t]? with
            | none => false
            | some g => s.pieceReady m g && s.deliverTurn m
              && (match (if m.pos = 0 && s.rangesMeet c (shapeBounds j.src) (shapeBounds j.dst) then
                  State.readSources c j (shapeCount j.dst) 0 s else .ok m.snap s) with
                | .ok snap t => okR (State.copyParts c { j with snap }
                    (if shapeMeetsItself j.dst then j.parts.filter fun p => m.served.contains p.gran else [])
                    (j.parts.filter fun p => p.gran = g) t)
                | _ => false))
    go (copying 0x100) = true ∧ go (copying 4) = true := by decide
/-- A copy of no element. -/
theorem witness_CopiesAndStreamLoads_empty :
    let s : State := { copying 0x100 with shapes := [(0, { live := true, image := dense spad 0 }), (1, { live := true, image := dense spad 0 })] }
    ((s.cmd s.arg.c).any fun m => m.eng = 0 && !m.finished && !s.outOfTurn (s.ctxCmd m) && copyProg (m.reg 11) = 1
      && (s.copyJob m).parts.isEmpty) = true := by decide
theorem witness_CopiesAndStreamLoads_invocation :
    let m : Cmd := { id := 4, slot := 0, eng := 0, word := 0, er := (Vector.replicate 64 0).set 11 3 }
    let s := withCmd m (shaped 0x100 (run []))
    s.cmd s.arg.c = some m ∧ m.finished = false ∧ s.outOfTurn (s.ctxCmd m) = false ∧ 3 ≤ copyProg (m.reg 11) ∧ m.pos < partCount (shapeBounds (s.cmdShape m (fld (m.reg 8) 0 32))) := by decide
theorem witness_CopiesAndStreamLoads_stream :
    let m : Cmd := { id := 4, slot := 0, eng := 2, word := 0xA1003200, ew := 5, vl := 2 }
    let s := withCmd m (shaped 0x100 (vec32 14 14 []))
    let z := s.focus m.slot
    s.cmd s.arg.c = some m ∧ m.finished = false ∧ s.outOfTurn (s.ctxCmd m) = false ∧ okR (State.slElems (z.ctxCmd m) (z.cmdShape m (fld (m.reg 4) 0 32)) m.a.toNat
      (fld (m.reg 5) 0 32 : BitVec 32).toNat 2 0 z) = true := by decide
/-- A finished command without a completion word, and one with a word in local memory. -/
theorem witness_CopiesAndStreamLoads_complete :
    let m : Cmd := { id := 4, slot := 0, eng := 3, word := 0, finished := true }
    let k : Cmd := { m with er := (Vector.replicate 64 0).set 2 (spad + 0x2FFF8) }
    (withCmd m (run [])).cmd 4 = some m ∧ m.finished = true ∧ m.reg 2 = 0
      ∧ (let e : Cmd := { m with eng := 5, word := 0xA2830000, finished := false, pos := 1 }
         (withCmd e (run [])).gxDrained e = true) ∧ k.reg 2 ≠ 0 ∧ (withCmd k (run [])).outOfTurn ((withCmd k (run [])).ctxDone k) = false
      ∧ locOf (coreOf k.slot) (k.reg 2) 8 = .raw (2 ^ 53 + 0x2FFF8) := by decide
theorem test_engine_fault_makes_a_trap_due :
    after (exec .engineFault { withCmd { id := 4, slot := 0, eng := 3, word := 0 } (run []) with arg := { c := 4, trap := { cause := 5, eng := 4 } } })
      (fun t => (t.cmds.map Cmd.stopped, t.slot.efaults.map EngFault.eng)) = some ([true], [3]) := by decide

/-- A plane command of the form that the word names, with the registers of `plane`. -/
def planeCmdOf (op : BitVec 32) : Cmd := { plane.planeCmd with id := 4, word := op <<< 18, locks := [] }

theorem witness_PlaneChain_plane :
    (let s := withCmd (planeCmdOf 2) plane
     let q := (s.getCore 0).tile 0
     s.cmd s.arg.c = some (planeCmdOf 2) ∧ (planeCmdOf 2).eng = 3 ∧ (planeCmdOf 2).peOp = 2 ∧ s.streamReady (planeCmdOf 2) = true ∧ s.outOfTurn (s.ctxCmd (planeCmdOf 2)) = false
      ∧ q.pair = none ∧ pastSpad (stepBytes ((planeCmdOf 2).reg 16) (planeCmdOf 2).wa ((planeCmdOf 2).reg 17) (planeCmdOf 2).wb 0 1) = none)
    ∧ (planeCmdOf 0).peOp = 0 ∧ (planeCmdOf 1).peOp = 1 ∧ (planeCmdOf 3).peOp = 3 := by decide
theorem witness_PlaneChain_load : okR (State.readC ((withCmd (planeCmdOf 1) plane).ctxCmd (planeCmdOf 1)) (planeCmdOf 1) 1 256 0 (withCmd (planeCmdOf 1) plane)) = true := by
  decide
theorem witness_PlaneChain_store : okR (State.writeD ((withCmd (planeCmdOf 3) plane).ctxCmd (planeCmdOf 3)) (planeCmdOf 3) 1 (List.replicate 256 0) 0
    (withCmd (planeCmdOf 3) plane)) = true := by decide

/-- A chain command whose pattern holds the entry given. -/
def chained (entry : Nat) (live : Dword) : State :=
  withCmd { (chain 1 live).capturedCmd 4 with id := 4 } { chain 1 live with mem := Memory.write [] (2 ^ 53) 2 entry }

theorem witness_PlaneChain_past : (withCmd { (chain 1 0).capturedCmd 4 with id := 4, er := (Vector.replicate 64 0) } (run [])).cmd 4
      = some { (chain 1 0).capturedCmd 4 with id := 4, er := (Vector.replicate 64 0) }
    ∧ Cmd.cePlen { er := Vector.replicate 64 0, id := 4, slot := 0, eng := 4, word := 0 } = 0 := by decide
/-- An entry with a reserved operation, END, and FLIP of a live boundary. -/
theorem witness_PlaneChain_steps :
    ([0x7000, 0, 0x5000].all fun w =>
      let s := chained w 1
      match s.cmd 4 with
      | none => false
      | some m => m.eng = 4 && !m.finished && !s.outOfTurn (s.ctxCmd m) && s.streamReady m && m.ceStep < m.cePlen
        && okR (s.engRead (s.ctxCmd m) (((m.reg 4).toNat + 2 * m.ceStep) * 8 : Nat) 16)) = true := by decide
theorem witness_PlaneChain_flip :
    (let s := chained 0x5000 1
     match s.cmd 4 with
     | none => false
     | some m =>
       let b := m.boundary
       let g : Stitch := ⟨0, 0, 0, 0⟩
       let b' := b.after 5 g
       m.chainReason 5 0 b b' = none
        && (State.chainTiles (s.ctxCmd m) m 5 0 b b' g (tileCount 5 b b' g - m.ceSub) m.ceSub s).2.2 = none) = true := by decide
/-- START of the first entry: one element of each dimension, its weights in the pool. -/
theorem witness_PlaneChain_start :
    (let s := { chained 0x1000 0 with mem := Memory.write (Memory.write [] (2 ^ 53) 2 0x1000) (2 ^ 53 + 0x100) 16 (spad.toNat + 0x110) }
     match s.cmd 4 with
     | none => false
     | some m =>
       let b := m.boundary
       match s.engRead (s.ctxCmd m) ((m.reg 6).toNat * 8 : Nat) 128 with
       | .ok v t =>
         let e : Dword := BitVec.ofNat 64 (v / 2 ^ 64)
         let g := m.stitch (BitVec.ofNat 64 v) e
         let b' := b.after 1 g
         16 ≤ (m.reg 7).toNat && !m.outside e g && !m.badDims 1 b e g && m.chainReason 1 0 b b' = none
          && (State.chainTiles (s.ctxCmd m) m 1 0 b b' g (tileCount 1 b b' g - m.ceSub) m.ceSub t).2.2 = none
       | _ => false) = true := by decide
theorem witness_PlaneChain_build :
    let er : Vector Dword 64 :=
      (((((Vector.replicate 64 0).set 4 spad).set 5 2).set 6 (spad + 0x1000)).set 7 (spad + 0x2000)).set 8 (spad + 0x3000)
    let m : Cmd := { id := 4, slot := 0, eng := 6, word := 0, er := er.set 9 16 }
    let s := withCmd m (run [])
    let c := s.ctxCmd m
    (s.bvHead 0).map Cmd.id = some 4 ∧ m.bvPhase = 0 ∧ 0 < m.bvN ∧ okR (s.engRead c (((m.reg 4).toNat + 32 * 0) * 8 : Nat) 256) = true
      ∧ okR (s.scribble c m 0 64) = true
      ∧ (let k := { m with er := m.er.set 11 1 }
         k.bvPhase = 1 ∧ okR (s.scribble c k 0 (64 * k.bvN)) = true)
      ∧ (let k := { m with er := m.er.set 11 3, snap := [0, 1] }
         k.bvPhase = 3 ∧ k.snap.length = k.bvN ∧ (buildNodes (k.snap.map boxOf) k.bvR)[k.bvItem]?.isSome = true
          ∧ okR (State.engPutBytes c (List.replicate 128 0) (k.reg 6) s) = true) := by decide

/-! ### Graphics, memory cores, shader forms -/

/-- A triangle that covers the first tile, opaque or translucent. -/
def prim (tr : Dword) : Prim :=
  { w := ((((((Vector.replicate 8 0).set 0 (1 + tr * 0x100000000)).set 1 0).set 2 0x0000000000001000).set 3 0x0000100000000000)), opc := 0x40,
    tpc := 0x40, oq := 5, tq := 5 }

theorem witness_Graphics_record :
    let m : Cmd := { id := 4, slot := 0, eng := 5, word := 0xA2810000, er := ((Vector.replicate 64 0).set 5 spad).set 6 1 }
    let s := withCmd m (run [])
    s.cmd s.arg.c = some m ∧ (s.binnerQueue (dieOf m.slot)).head?.map Cmd.id = some m.id
      ∧ okR (s.engRead (s.ctxCmd m) (((m.reg 5).toNat + 64 * m.pos) * 8 : Nat) 512) = true
      ∧ ((s.die 0).gfx.record m (Vector.replicate 8 0)).isSome = true
      ∧ ({ (s.die 0).gfx with cur := some target }.record m (prim 0).w).isSome = true := by decide
theorem witness_Graphics_commit :
    let m : Cmd := { id := 4, slot := 0, eng := 5, word := 0xA28429C8, data := List.replicate 256 7 }
    let s := withCmd m (drawn tile (run []))
    m.colours ≤ m.data.length ∧ ({ m with data := [] } : Cmd).data.length < m.colours ∧ s.outOfTurn (s.ctxCmd m) = false ∧
    m.gxForm = 4 ∧ s.commitTask (dieOf m.slot) m.a m.b = some (tile, pixelTask) ∧ tile.commitDue pixelTask = true
      ∧ okR (State.commitPixels ((s.seenSlot 0 tile).2.ctxCmd m) m (s.seenSlot 0 tile).1 pixelTask [0] (s.seenSlot 0 tile).2) = true := by
  decide
theorem witness_Graphics_replay :
    let b : Batch := { no := 0, st := target, prims := [prim 1], tiles := [((0, 0), [0])] }
    let s := (run []).modGfx 0 fun g => { g with replay := some b, pending := [(0, 0)] }
    (s.die 0).gfx.replay = some b ∧ (s.die 0).gfx.pending = [(0, 0)] ∧ (s.die 0).gfx.tiles = [] ∧ okR (s.tileRate 0 b.st 0 0) = true := by
  decide
theorem witness_Graphics_tiles :
    (let t := { tile with slot := none, final := false, tasks := [] }
     let s := drawn t (run [])
     s.tileRun = some t ∧ (s.die 0).gfx.freeTileSlot t = some 0 ∧ (s.die 0).gfx.canStart t = true ∧ okR (State.readDepth 0 t 8 0 s) = true)
    ∧ (let t := { tile with final := false }
       (drawn t (run [])).tileRun = some t ∧ t.slot ≠ none)
    ∧ (let t := { tile with toEmit := [(prim 1, 1)] }
       (drawn t (run [])).tileRun = some t ∧ t.transWaits = false
        ∧ ((drawn t (run [])).die 0).gfx.entriesUsed (tileCluster (t.tx, t.ty)) < 256)
    ∧ (let t := { tile with tasks := [{ pixelTask with performed := true }] }
       t.drained = true ∧ (drawn t (run [])).tileRun = some t ∧ t.st.dwrite = false) := by decide

/-- An invocation of a user program with the registers given. -/
def mcrun (l : List (Nat × Dword)) : State :=
  let c : Cmd := { id := 4, slot := 0, eng := 0, word := 0, er := (((Vector.replicate 64 0).set 9 (spad + 0x1000)).set 10 0x800).set 11 3 }
  { shaped 0x100 (run []) with
    cmds := [c]
    mcs := [{ cmd := c, j := 0, lo := spad.toNat, hi := spad.toNat + 64, m := l.foldl (fun m p => m.setIfInBounds p.1 p.2) (Vector.replicate 16 0) }] }

theorem test_mc_arithmetic : after (exec (.mcSub 3 1 2) (mcrun [(1, 5), (2, 7)])) (fun t => t.mcs.map fun r => r.get 3) = some [0xFFFFFFFFFFFFFFFE]
    ∧ after (exec (.mcAdd 0 1 2) (mcrun [(1, 5), (2, 7)])) (fun t => t.mcs.map fun r => r.get 0) = some [0] := by decide
/-- The last doubleword of the buffer, one past it; counts 1 and 2048; the ends of the source range. -/
theorem witness_MemoryCoreInstructions :
    let s := mcrun [(1, 2040), (2, 2041), (3, spad), (4, 64), (5, 2048), (6, spad + 0x1000), (7, 1), (8, spad + 63)]
    (match s.mcs with
      | [r] =>
        (r.get 1 + (0 : Dword)).toNat % 8 = 0 && (r.get 1).toNat ≤ 2040 && (r.get 2).toNat % 8 ≠ 0 && 2040 < (r.get 1 + 8).toNat
          && r.lo ≤ (r.get 3).toNat && (r.get 3).toNat + (r.get 4).toNat ≤ r.hi && okR (s.engBytes (s.ctxCmd r.cmd) (r.get 3) 64)
          && r.lo ≤ (r.get 8).toNat && (r.get 8).toNat + (r.get 7).toNat ≤ r.hi && (r.get 0).toNat + (r.get 5).toNat ≤ 2048
          && (r.cmd.reg 9).toNat ≤ (r.get 6).toNat && (r.get 6).toNat + (r.get 5).toNat ≤ (r.cmd.reg 9).toNat + (r.cmd.reg 10).toNat
          && okR (State.engPutBytes (s.ctxCmd r.cmd) [1, 2] (r.get 6) s) && r.hi < (r.get 8).toNat + (r.get 4).toNat
          && 2048 < (r.get 1).toNat + (r.get 4).toNat && (s.shapeOf (clusOfCore (coreOf r.cmd.slot)) 0).isSome
          && (s.shapeOf (clusOfCore (coreOf r.cmd.slot)) 7).isNone
      | _ => false) = true := by decide

/-- Registers for the shader forms: 32-bit elements, VL 1, every register f32 but for the level in v6 and the
addresses in v16. -/
def shade (l : List (RegNo × Dword)) : State :=
  withSlot (run l) fun t =>
    { t with vill := false, vew := 5, vl := 1, v := ((Vector.replicate 32 ({ tag := 1 } : VReg)).set 16 { data := BitVec.ofNat 2048 spad.toNat }).set 6 { tag := 14 } }

theorem witness_Shader_texture :
    let s := shade [(2, spad)]
    let gc := s.gN * 32 / s.ew
    let n := (texTags 0).length
    s.namesLink [2] = false ∧ s.slot.vill = false ∧ s.ew = 32 ∧ 1 ≤ gc ∧ gc ≤ 8 ∧ runOk 4 gc n = true ∧ runOk 8 s.gN 4 = true
      ∧ s.maskOk 0 = true ∧ overlaps 8 (4 * s.gN) 4 (n * gc) = false
      ∧ (∀ k < n, s.vtag (runReg 4 gc k) = (texTags 0).getD k 0 ∧ s.readableAs (runReg 4 gc k) gc 32 s.vlN = true)
      ∧ (∀ k < 4, s.writable (runReg 8 s.gN k) s.vlN = true) ∧ s.slot.block = none ∧ okR (s.loadWide s.ctx (s.getX 2) 16 16 48) = true := by decide
/-- A binding of one level of one texel (R358), read or held, and an element that it answers. -/
theorem witness_Shader_binding :
    let s := { shade [(2, spad)] with mem := Memory.write [] (2 ^ 53) 48 (spad.toNat + 5 * 2 ^ 99 + 4 * 2 ^ 256) }
    (match s.loadWide s.ctx (s.getX 2) 16 16 48 with
      | .ok v q =>
        let t := q.upd fun t => { t with block := some (BitVec.ofNat 1024 v) }
        let tb := TexBinding.ofNat v
        tb.ok && tagMem tb.out = s.ew && okR (t.texElem t.ctx tb 0 [0, 0, 0]) && t.slot.block.isSome && t.actives 0 = [0] && t.startElem = 0
      | _ => false) = true := by decide
theorem witness_Shader_rays :
    let s := shade [(2, spad)]
    s.slot.vill = false ∧ s.ew = 32 ∧ 0 < s.lanes ∧ s.lanes ≤ 8 ∧ s.vlN ≤ s.vlmax ∧ s.slot.restart = none ∧ s.maskOk 0 = true
      ∧ runOk 8 s.gN 8 = true ∧ runOk 16 (2 * s.gN) 1 = true ∧ overlaps 8 (8 * s.gN) 16 (2 * s.gN) = false
      ∧ (∀ k < 8, s.vtag (runReg 8 s.gN k) = 1 ∧ s.readable (runReg 8 s.gN k) s.vlN = true) ∧ s.readableAs 16 (2 * s.gN) 64 s.vlN = true
      ∧ (∀ n ∈ [2, 4], runOk 20 s.gN n = true ∧ overlaps 20 (n * s.gN) 8 (8 * s.gN) = false ∧ overlaps 20 (n * s.gN) 16 (2 * s.gN) = false
        ∧ ∀ k < n, s.writable (runReg 20 s.gN k) s.vlN = true)
      ∧ s.actives 0 = [0] ∧ (BitVec.ofNat 64 (s.elem 16 64 0)).toNat % 128 = 0
      ∧ locOf s.coreNo (BitVec.ofNat 64 (s.elem 16 64 0)) 128 ≠ .bad ∧ locOf s.coreNo (BitVec.ofNat 64 (s.elem 16 64 0)) 36 ≠ .bad := by decide
theorem witness_Shader_blocks :
    (∀ j ∈ [0, 1], (shade []).RawAt (BitVec.ofNat 64 ((shade []).elem 16 64 0) + BitVec.ofNat 64 (64 * j)) 64 (2 ^ 53 + 64 * j) false)
      ∧ (∀ j ∈ List.range 9, (shade []).RawAt (BitVec.ofNat 64 ((shade []).elem 16 64 0) + BitVec.ofNat 64 (4 * j)) 4 (2 ^ 53 + 4 * j) false) :=
  ⟨rawAt_all (by decide), rawAt_all (by decide)⟩
theorem witness_Shader_vmm :
    let s := withSlot (run []) fun t => { t with vill := false, vew := 3, v := ((t.v.set 2 { tag := 22 }).set 4 { tag := 27 }).set 8 { tag := 1 } }
    s.slot.vill = false ∧ s.ew = 8 ∧ s.gN = 1 ∧ s.lanes = 8 ∧ (8 : RegNo) ≠ 2 ∧ (8 : RegNo) ≠ 4 ∧ (2 : RegNo) ≠ 4 ∧ s.vtag 2 ∈ [22, 23, 24, 25, 27]
      ∧ s.vtag 4 ∈ [22, 23, 24, 25, 27] ∧ s.vtag 8 = 1 ∧ s.rmode 7 = some .rne ∧ s.readable 2 256 = true ∧ s.readable 4 256 = true
      ∧ s.readable 8 64 = true ∧ s.writable 8 64 = true := by decide


/-! ### Control registers, the prefix, traps -/

theorem test_crw_frm : after (exec (.crw 3 1 0x21) (run [(1, 0xFF)])) (fun t => (t.getX 3, t.slot.frm)) = some (0, 7) := by decide
theorem test_crs_reads_with_s0 : after (exec (.crs 3 0 0x23) (run [])) (fun t => (t.getX 3, t.slot.flags)) = some (5, 5) := by decide
theorem test_vlmaxp_refuses : after (exec (.crw 3 1 3) (run [(1, 3)])) (fun t => (t.core.lanes, t.slot.st)) = some (8, .faulted) := by decide
theorem test_user_write_traps : after (exec (.crw 3 1 0x43) (withSlot (run [(1, 8)]) fun t => { t with mode := 0 })) (·.slot.st)
    = some .faulted := by decide
theorem witness_ControlRegistersAndPrefix_writes :
    let s := run [(1, 4)]
    s.LinksOk [] (some 3) ∧ s.slot.crLocked 0x20 = false ∧ s.LinksOk [1] (some 3) ∧ s.lanesWait 3 4 = false
      ∧ s.slot.crLocked 0x30 = true ∧ (withSlot s fun t => { t with mode := 0 }).slot.mode = 0
      ∧ (0x70 ≤ (0x73 : BitVec 12).toNat ∧ (0x73 : BitVec 12).toNat ≤ 0x73) ∧ s.slot.mode ≠ 0 ∧ s.outstanding 0xFFFF 5 = false
      ∧ ({ s with arg := { t := 8 } } : State).arg.t = 8 :=
  ⟨⟨by decide, by decide⟩, by decide, ⟨by decide, by decide⟩, by decide, by decide, by decide, by decide, by decide, by decide, rfl⟩
/-- A prefix and a target after it, a word that is no target, and a prefix in user mode. -/
def pair (w : Nat) : State := withSlot { run [(1, 7), (2, 9)] with mem := Memory.write [] 0x1004 4 w } fun t => { t with ir := 0xFE000000, npc := 0x1004 }

theorem witness_ControlRegistersAndPrefix_pairs :
    (pair 0x08000000).slot.mode = 2 ∧ (run []).slot.mode = 2 ∧ (withSlot (run []) fun t => { t with mode := 1 }).slot.mode ≠ 2
      ∧ (match (pair 0x08000000).pairWord with
        | .ok w t =>
          let z : State := { t with slot := { t.slot with pfx := (pair 0x08000000).slot.ir, ir := w, npc := t.slot.pc + 8 } }
          w = 0x08000000 && (match (decode w).bind fun i => prefixTarget i z with
            | some (.next _) => true
            | _ => false)
        | _ => false) = true
      ∧ (match (pair 0x80000004).pairWord with
        | .ok w t => ((decode w).bind fun i => prefixTarget i t).isNone
        | _ => false) = true := by decide
/-- ABSA and NEGA make -5 of both 5 and -5 (R85): -5 + 9. -/
theorem test_prefix_pair : after (exec (.pfx false false true false true false 0) (withSlot { run [(1, 5), (2, 9)] with mem := Memory.write [] 0x1004 4 0x08611000 }
    fun t => { t with ir := 0xFCA00000, npc := 0x1004 })) (fun t => (t.getX 3, t.slot.npc)) = some (4, 0x1008) := by decide

/-- A slot that delivers locally, its handler at 0x2000. -/
def handler : State := withSlot (run [(4, 11), (5, 12)]) fun t => { t with tvec := 0x2001 }

theorem test_sys_enters : after (exec .sys handler) (fun t => (t.slot.pc, t.slot.epc, t.slot.tval, t.slot.txval, t.slot.tcause))
    = some (0x2000, 0x1004, 11, 12, 0x8000000000000007) := by decide
theorem test_tret_returns : after (exec .tret (withSlot (run []) fun t => { t with tcause := 0x8000000000000007, epc := 0x1004 }))
    (fun t => (t.slot.pc, t.slot.tcause)) = some (0x1004, 7) := by decide
/-- Local delivery, a fault-domain cause, and a slot whose handler runs. -/
theorem witness_TrapsAreTakenAndReturnedFrom :
    handler.slot.deliversLocally { cause := 1 } = true ∧ handler.slot.deliversLocally { cause := 22 } = false
      ∧ (run []).slot.deliversLocally { cause := 21 } = false ∧ handler.slot.loop = false
      ∧ (withSlot (run []) fun t => { t with tcause := 0x8000000000000000 }).slot.tcause.getLsbD 63 = true
      ∧ (run []).slot.tcause.getLsbD 63 = false ∧ (handler.focus handler.arg.n).slot.st = .running
      ∧ (handler.focus handler.arg.n).slot.deliversLocally { cause := 13 } = true := by decide

/-- A task that commands another slot of its tree, slot 1, which is FAULTED with SEQ 6. -/
def faulted : State :=
  let s := task []
  { s with others := [(1, { Slot.reset with st := .faulted, seq := 6, tinfo := 0x0000000200050300, faultReg := 2, faultRec := some {} })] }

theorem witness_CommandRegisters_fres :
    let w : Dword := 0x0000000000060001
    fld w 36 28 = (0 : BitVec 28) ∧ (fld w 32 4 : BitVec 4).toNat < 4 ∧ (faulted.getSlot (fld w 0 16)).st = .faulted
      ∧ (faulted.getSlot (fld w 0 16)).seq = fld w 16 16 ∧ faulted.sameTree (faulted.getSlot 1).regionH faulted.slot.regionH = true
      ∧ (faulted.getSlot 2).st ≠ .faulted
      ∧ (let s := { faulted with regions := [{ region2 with handle := 3 }] }
         s.sameTree (s.getSlot 1).regionH s.slot.regionH = false)
      ∧ (fld (0x1000000000 : Dword) 36 28 : BitVec 28) ≠ 0 ∧ 4 ≤ (fld (0x400000000 : Dword) 32 4 : BitVec 4).toNat := by decide
theorem witness_CommandRegisters_rctl :
    let child : Region := { region2 with handle := 3, parent := 2 }
    let s := { task [] with regions := [region2, child] }
    (s.region 3).isSome = true ∧ (s.region 9).isNone = true ∧ s.sameTree 3 s.slot.regionH = true
      ∧ (s.path s.slot.regionH).contains 3 = false ∧ s.queue 5 = some queue5 ∧ s.sameTree queue5.region s.slot.regionH = true := by decide
theorem witness_CommandRegisters_record :
    let s := { faulted with arg := { n := 1 } }
    s.arg.wants = false ∧ s.liveCmds 1 = false ∧ (s.getSlot 1).faultRec = some {} ∧ s.faultQueue (s.getSlot 1).faultReg = none
      ∧ (let s := { s with regions := [{ region2 with hpc := 0x40, fdom := 5 }] }
         s.faultQueue (s.getSlot 1).faultReg = some queue5 ∧ queue5.waiters.contains (.slot 1) = false) := by decide
theorem test_fres_kill : after (exec .fresKill { faulted with arg := { n := 1 } }) (fun t => (t.getSlot 1).st) = some .free := by decide

/-! ### Dispatch -/

/-- A queue with one record, the slots of module reset asking. -/
def queued : State := { task [] with queues := [{ queue5 with entries := [{ w0 := 0x4000, w1 := 0x0001000500000002, key := 9 }] }], slot := Slot.reset }

theorem witness_Dispatchers_grant :
    let s1 := queued.dropDead queued.arg.die
    s1.dispatching 0 = true ∧ (match s1.answerable 0 with
      | some (n, cs) => n = 0 && (match s1.choose 0 cs with
        | some (_, _, e, _) => !e.team && !e.resume
        | none => false)
      | none => false) = true := by decide
theorem test_grant_starts : after (exec .dispatchGrant queued) (fun t => ((t.getSlot 0).st, (t.getSlot 0).tinfo, t.mem.read 0x8030 8))
    = some (.starting, 0x0000000200050100, 1) := by decide
theorem test_pick_up : after (exec .pickUp (withSlot (task []) fun t => { t with st := .starting, recd := some { w0 := 0x4000, arg0 := 11, fp := 7 } }))
    (fun t => (t.slot.st, t.slot.pc, t.slot.mode, t.getX 3, t.getX 4)) = some (.running, 0x4000, 2, 7, 11) := by decide
theorem witness_Dispatchers_slots :
    (let s := withSlot (task []) fun t => { t with st := .starting, recd := some { w0 := 0x4000 } }
     (s.focus s.arg.n).slot.st = .starting ∧ (s.focus s.arg.n).slot.recd = some { w0 := 0x4000 }
      ∧ fld ({ w0 := 0x4000 } : Rec).pc 0 2 = (0 : BitVec 2) ∧ ({ w0 := 0x4000 } : Rec).badAtPickUp = false)
    ∧ (let s := withSlot (task []) fun t => { t with tasklim := 5, taskcyc := 5 }
       (s.focus s.arg.n).slot.st = .running ∧ (s.focus s.arg.n).slot.tasklim ≠ 0
        ∧ (s.focus s.arg.n).slot.tasklim.toNat ≤ (s.focus s.arg.n).slot.taskcyc.toNat)
    ∧ ({ run [] with core := { Core.reset with clkIdle := 64 } } : State).core.clkIdle = 64
    ∧ ([queue5].map Queue.num).Nodup
    ∧ ({ task [] with migrations := [{ src := 5, dst := 1, count := 64 }] } : State).queue 5 = some queue5 := by decide
theorem test_clkts_tick : after (exec .clktsTick { run [] with core := { Core.reset with clkIdle := 64 } }) (fun t => (t.core.clkts, t.core.clkIdle))
    = some (1, 0) := by decide

/-! ### Homes, the host, management -/

/-- Line 0x20 has its home on another die than 7. -/
theorem witness_HomesAndSlicesKeepTheirLines :
    let s : State := { run [] with arg := { die := 7, line := 0x20 } }
    let c : SliceCopy := { die := 7, line := 0x20, owned := false, wts := 0, rts := 64 }
    s.arg.line < 2 ^ 34 ∧ s.poisoned s.arg.line = false ∧ s.arg.die ≠ homeDie (s.arg.line * 64) ∧ (s.home s.arg.line).st ≠ .modified
      ∧ (∀ wr, s.hostHolds s.arg.line wr = false) ∧ s.sliceOf s.arg.die s.arg.line = none ∧ s.pinnedLine 7 0x20 = false
      ∧ ({ s with slices := [c] } : State).sliceOf 7 0x20 = some c ∧ c.owned = false
      ∧ ({ s with arg := { die := 7, wants := true } } : State).arg.wants = true ∧ s.arg.wants = false ∧ (s.die 7).lost = false
      ∧ s.busySlots 7 = [] := by decide
theorem witness_Homes_walk :
    let s := withSlot (run []) fun t => { t with mode := 0 }
    let z := s.focus s.arg.n
    z.rootOf z.slot = 0 := by decide
/-- A space whose tables lead through two levels to a page of 1 GiB at 0, with R, W, X and U (R384). -/
def paged : State :=
  { withSlot (task []) fun t => { t with mode := 0 } with
    regions := [{ region2 with root := 0x10000 }]
    mem := Memory.write (Memory.write (Memory.write [] 0x10000 8 0x11001) 0x11000 8 0x12001) 0x12000 8 0x3F
    arg := { va := 0x1234, kind := .read } }

theorem witness_Homes_walk_ends :
    okR ((paged.focus paged.arg.n).walkFill (paged.focus paged.arg.n).ctx paged.arg.va paged.arg.kind) = true := by decide
/-- A walk for a read sets A alone (R385). -/
theorem test_page_walk_sets_a : after (exec .pageWalk paged) (fun t => (t.mem.read 0x12000 8, t.core.tlb.map TlbEntry.level)) = some (0x7F, [2]) := by
  decide
theorem test_home_read_leases : after (exec .homeRead { run [] with arg := { die := 7, line := 0x20, t := 10 } })
    (fun t => ((t.home 0x20).rts, (t.home 0x20).shr, t.slices.map SliceCopy.rts)) = some (74, 0x80, [74]) := by decide
theorem witness_HostRequestsAndSnoopsAreAnswered :
    let l := 2 ^ 45
    let held (st : DirSt) : State := { run [] with arg := { line := l }, homes := [(l, { hostSt := st })] }
    (run []).arg.line < 2 ^ 34 ∧ (run []).bisnp.contains 0 = false ∧ (run []).poisoned 0 = false ∧ (run []).touchesRange 0 64 = false
      ∧ ((run []).home 0).st ≠ .modified ∧ ({ run [] with bisnp := [0] } : State).bisnp.contains 0 = true
      ∧ ({ run [] with poison := [0] } : State).poisoned 0 = true ∧ 2 ^ 45 ≤ l ∧ l < 2 ^ 46
      ∧ ((held .inv).home l).hostSt = .inv ∧ ((held .modified).home l).hostSt ≠ .inv ∧ (held .modified).poisoned l = false
      ∧ ((held .modified).home l).st ≠ .modified ∧ ({ run [] with fills := [l] } : State).fills.contains l = true
      ∧ ((run []).die (homeDie (l * 64))).lost = false := by decide
theorem test_memwr : after (exec .memwr { run [] with arg := { line := 1, data := [1, 2] } }) (fun t => (t.mem, t.outbox))
    = some ([(64, 1), (65, 2)], [.hostDone 1 false]) := by decide

/-- A command word of a code, issued or running, in a phase. -/
def nasum (code : Dword) (phase : BitVec 16) (busy wants : Bool) : State :=
  { run [] with nasum := { phase, busy }, arg := { v := code, wants } }

theorem witness_ManagementCommandsRunAndFinish :
    (nasum 3 6 true false).nasum.busy = true ∧ (nasum 3 6 false false).arg.wants = false ∧ (nasum 1 5 true true).nasum.phase = 5
      ∧ (nasum 11 6 true true).nasum.phase = 6 ∧ (nasum 12 6 true true).arg.wants = true ∧ (nasum 3 0xFFFF true true).nasum.phase = 0xFFFF
      ∧ fld ((nasum 11 6 true true).arg.v) 32 32 = (0 : BitVec 32) ∧ (fld (nasum 0x100000003 6 true true).arg.v 32 32 : BitVec 32) ≠ 0
      ∧ (fld (nasum 12 6 true true).arg.v 0 16 : BitVec 16).toNat = 12 ∧ (fld (nasum 1 6 true true).arg.v 0 16 : BitVec 16).toNat = 1 := by
  decide
theorem witness_Management_arguments :
    let arg (a b : Dword) : State := { task [] with nasum := { phase := 6, narg := ((Vector.replicate 7 0).set 0 a).set 1 b } }
    fld ((arg 2 0).nasum.arg 0) 32 32 = (0 : BitVec 32) ∧ ((arg 2 0).region (fld ((arg 2 0).nasum.arg 0) 0 32)).isSome = true
      ∧ (arg 4095 0).nasum.arg 1 = 0 ∧ ((arg 4095 0).nasum.arg 0).toNat < 4096 ∧ 16 ≤ ((arg 16 0).nasum.arg 0).toNat
      ∧ 2 ^ 51 < ((arg 0x7FFFFFFFFF001 0).nasum.arg 0).toNat + 4096 ∧ fld ((arg 0x7F 0xFF).nasum.arg 0) 7 57 = (0 : BitVec 57)
      ∧ fld ((arg 0x7F 0xFF).nasum.arg 1) 8 56 = (0 : BitVec 56)
      ∧ ({ (arg 0 0).nasum with burnt := 1024 } : Nasum).burnt = 1024 := by decide
theorem test_region_kill : after (exec .regionKill { task [] with
      nasum := { phase := 6, busy := true, narg := (Vector.replicate 7 0).set 0 2 }, arg := { v := 4, wants := true } })
    (fun t => (t.nasum.result, t.nasum.busy, t.regions.map Region.handle)) = some (0, false, []) := by decide
theorem test_command_before_boot : after (exec .imageLoad (nasum 2 5 true true)) (fun t => (t.nasum.result, t.nasum.busy)) = some (4, false) := by
  decide
theorem witness_ModuleResetAndPowerEvents :
    let s : State := State.reset.modDie 0 fun e => { e with cycle := 2 ^ 20 }
    (s.die s.arg.die).power = .active ∧ s.busySlots s.arg.die = [] ∧ s.cmds = []
      ∧ (s.die s.arg.die).busyAt + 2 ^ 20 ≤ (s.die s.arg.die).cycle ∧ (s.die s.arg.die).cycle % 1024 = 0
      ∧ ((s.modDie 0 fun e => { e with cycle := 2 ^ 20 + 1 }).die 0).cycle % 1024 ≠ 0
      ∧ ((s.modDie 0 fun e => { e with power := .idle }).die 0).power = .idle
      ∧ ({ s with arg := { t := 3 } } : State).arg.t ≤ 3 ∧ 3 ≠ (fld (s.die 0).pwr 0 4 : BitVec 4).toNat := by decide
theorem test_clock_level : after (exec .clockLevelStep { run [] with arg := { t := 2, v := 1 } }) (fun t => (t.die 0).pwr) = some 0x112 := by decide

/-! ### Steps, encodings, invariants -/

/-- What an answer is. -/
def isNext (o : Out) : Bool :=
  match o with
  | .next _ => true
  | _ => false

/-- A core's word and a memory core's word, placed after reset, run first. -/
theorem test_step_runs_the_placed_word : isNext (step (State.reset.withFetchWord 32 0x04420008)) = true
    ∧ isNext (step (State.reset.withFetchWord 32 0x44000000)) = true := by decide
theorem witness_StepRunsTheDecodedInstruction :
    let p := State.reset.withFetchWord 32 0x04420008
    p.inbox = [] ∧ p.agents = [.turn p.slotNo] ∧ p.slot.limitDue = false ∧ p.slot.efaults = [] ∧ p.slot.hold = false
      ∧ p.slot.loop = false ∧ fld p.slot.pc 0 2 = (0 : BitVec 2) ∧ p.slot.mode = 2 ∧ p.slot.pc.toNat < 2 ^ 40 ∧ p.core.icache = []
      ∧ p.slot.ahead = []
      ∧ p.poisoned (p.slot.pc.toNat / 64) = false ∧ p.hostHolds (p.slot.pc.toNat / 64) false = false
      ∧ (match p.fetchAt p.slot.pc with
        | .ok w _ => decode w
        | _ => none) = some (.addi 2 2 8) := by decide
/-- A slot that holds its instruction, and one whose body's second word is next. -/
theorem witness_Step_held_and_body :
    let p := State.reset.withFetchWord 32 0x04420008
    let h := withSlot p fun t => { t with hold := true, ir := 0x80000004 }
    let b := withSlot p fun t => { t with loop := true, body := [0x04420008, 0x08000000], bpos := 1 }
    h.agents = [.turn h.slotNo] ∧ decode h.slot.ir = some .done ∧ b.agents = [.turn b.slotNo] ∧ b.slot.issues b.slot.bpos.toNat = true
      ∧ b.slot.body[b.slot.bpos.toNat]? = some 0x08000000 ∧ decode 0x08000000 = some (.add 0 0 0) ∧ b.slot.hold = false := by decide
theorem witness_DecodeAndEncodeAgree : (Instr.vadd 4 5 6 9 1).wf = true ∧ (Instr.vadd 4 5 6 9 1).hasWord = true
    ∧ (Instr.mcSub 12 1 4).hasMcWord = true ∧ decode 0x64853248 = some (.vadd 4 5 6 9 1) := by decide
theorem test_encode : (Instr.vadd 4 5 6 9 1).encode = 0x64853248 ∧ (Instr.mcAddi 13 0 3).encode = 0x27400003
    ∧ (Instr.waita 5 2 3 1 0).encode = 0x84A21808 := by decide
/-- Reset is canonical, and a step leads from it. -/
theorem witness_EveryStepKeepsMemoryCanonical : State.reset.Canonical ∧ isNext (step State.reset) = true := by
  unfold State.Canonical; decide


/-! ### Further premises: each clause, at the ends of its range -/

/-- A command of slot 0 under way. -/
def cmd3 : Cmd := { id := 3, slot := 0, eng := 0, word := 0 }
def busy (s : State) : State := { s with cmds := [cmd3] }

/-- A fence whose command is done, and one whose command is under way; the last class of its second mask. -/
theorem witness_FencesWaitAndTakeInTime_standing :
    let f : PendFence := { cmds := [3], peer := false, packets := false, after := 0x8000, scope := 2, all := true, next := 4 }
    let s := withSlot (run []) fun t => { t with fences := [f] }
    f ∈ s.slot.fences ∧ f.after.getLsbD (15 : BitVec 4).toNat = true ∧ s.slot.fences = [f] ∧ s.fenceMet f = true
      ∧ (busy s).fenceMet f = false ∧ (busy s).outstanding 1 2 = true ∧ s.outstanding 1 2 = false := by decide
theorem witness_SequencerForms_ahead :
    let s := withSlot (looped 0x101 0xFE000001000000) fun t => { t with ahead := [(5, 0)] }
    ∀ e ∈ s.slot.ahead, e.2 = s.lineData e.1 := by decide
/-- Progress of the whole group of a wider destination, and of packed sources. -/
theorem witness_Vector_groups_at_hand :
    (let s := vec32 14 13 []
     s.vready [1] 4 0 = true ∧ s.readableAs 4 2 64 s.vlN = true ∧ s.writableAs 4 2 64 s.vlN = true)
    ∧ (let s := vec32 1 1 []
     s.vready [1] 4 0 = true ∧ s.readable2 2 0 = true ∧ s.readableAs 4 1 32 s.vlN = true ∧ s.writableAs 4 1 32 s.vlN = true
      ∧ s.writableAs 4 2 64 s.vlN = true)
    ∧ (let s := withSlot (vec 32 []) fun t => { t with v := t.v.set 1 { data := 0x7F, tag := 17 } }
     s.vready [] 3 0 = true ∧ s.readableAs 1 (ceilDiv (s.vlN * tagReg (s.vtag 1)) s.regBits) (tagReg (s.vtag 1)) s.vlN = true) := by
  decide
/-- A register of the last links, registers that name no group, a group that overlaps, tags of another width at every form,
and a reserved mode. -/
theorem witness_VectorChecks_clauses :
    (linked.slot.lm = true ∧ 28 ≤ (28 : RegNo).toNat)
    ∧ (let s := withSlot (vec32 16 1 []) fun t => { t with vgrp := 1 }
     s.slot.vill = false ∧ groupOk 3 s.gN = false ∧ s.maskOk 1 = false ∧ (withSlot s fun t => { t with vgrp := 3, vew := 6 }).repOk 7 = true)
    ∧ overlaps 3 1 3 1 = true
    ∧ (let s := vec32 16 1 []
     s.Groups [3, 1] 0 ∧ tagReg (s.vtag 1) ≠ s.ew ∧ overlaps 3 s.gN 1 s.gN = false ∧ 16 ≤ s.ew ∧ groupOk 2 s.gN = true
      ∧ overlaps 3 s.gN 2 s.gN = false)
    ∧ (let s := withSlot (vec32 1 1 []) fun t => { t with frm := 6 }
     s.Groups [3, 1, 2] 0 ∧ s.repOk 0 = true ∧ s.vtag 1 = s.vtag 2 ∧ tagReg (s.vtag 1) = s.ew ∧ s.vmode 0 = none ∧ s.vmode 4 = none) := by
  unfold State.Groups; decide
/-- Every member but this one has arrived; no active element; a launch in which a trap is due, and one that is left no team. -/
theorem witness_WaitsBarriers_rest : (vatom false).actives 8 = [] ∧ (vatom false).readable 8 (vatom false).vlN = true := by decide
theorem witness_ParkedSlots_launch :
    let q := { queue5 with waiters := [.slot 0] }
    let s : State := withSlot { task [(6, 1)] with queues := [q] } fun t =>
      { t with st := .parked, park := .queue, recd := some {}, recQ := 5, launch := some 6 }
    let p := (s.placeTeam 6 q.num {}).upd fun t => { t.unpark with launch := none }
    s.slot.launch = some 6 ∧ s.slot.trapDue = false ∧ fld (p.getX 6) 0 32 = (0 : BitVec 32) ∧ q.canResume (.slot s.slotNo) = true
      ∧ (withSlot s fun t => { t with efaults := [{ eng := 3, info := { cause := 5 } }] }).slot.trapDue = true := by decide
theorem witness_ParkedSlots_barrier :
    let parked (p : Park) : State := withSlot { member [] with teams := [{ team2 with bars := team2.bars.set 1 { ph := 5 } }] }
      fun t => { t with st := .parked, park := p }
    (parked (.barrier 1 4 false)).barrierMet 0 (parked (.barrier 1 4 false)).slot = true := by decide
theorem witness_Ranges_pinned :
    let r : CRange := { runs := [{ pa := 0x1000, off := 0, len := 128 }], rm := 0, op := 0, fmt := 14, parts := [], ucopies := [] }
    ∀ k, (withRange 14).pinned k + r.pinned k ≤ pinLimit := by decide
theorem witness_ShapeRecords_row : locOf 0 spad 96 ≠ .bad := by decide
/-- A bit field in an alias window whose origin is not 0 (R211, R261). -/
theorem witness_BitField_window :
    let s := withSlot (run []) fun t => { t with wfmt := t.wfmt.set 1 0x1000000000 }
    s.LandsRaw 0xFE000000100008 1 (2 ^ 53 + 0x1008) ∧ s.interlocked s.ctx (2 ^ 53 + 0x1008) 1 true true = false :=
  ⟨.inr ⟨1, 8, by decide, by decide, by decide, by decide⟩, by decide⟩
/-- A decided copy held by the die, and an access that a propose waits for. -/
theorem witness_CellForms_copy :
    let s : State := { run [(2, 9 + 5 * 2 ^ 32), (4, 0xFFFFFFFFF0)] with
      cells := [{ die := 0, pa := 0xFFFFFFFFF0, gen := 9, image := cellImage 1 0 9 77 }] }
    (s.cellCopy s.dieNo (s.getX 4).toNat (fld (s.getX 2) 0 32)).isSome = true ∧ s.outstanding 0xFFFF 5 = false
      ∧ (∀ wr, s.interlocked s.ctx (s.getX 4).toNat 16 wr false = false)
      ∧ (let b : State := { s with cmds := [{ cmd3 with er := (Vector.replicate 64 0).set 1 (0x100000000 : Dword), finished := true }] }
         b.outstanding 0xFFFF 5 = true ∧ ∀ wr, b.interlocked b.ctx (s.getX 4).toNat 16 wr false = false) := by decide
theorem witness_CellForms_held :
    let p : PendRecycle := { pa := 0x40, slot := 0, gen := 9, cmds := [], peer := true, packets := true }
    let s : State := { run [] with recycles := [p], arg := { pa := 0x40 }, homes := [(1, { host := true })] }
    s.recycles.find? (fun q => decide (q.pa = s.arg.pa) && s.recycleDone q) = some p ∧ s.phys p.pa = .device
      ∧ s.hostHolds (p.pa / 64) true = true ∧ (run []).hostHolds (p.pa / 64) true = false := by decide

/-- The module's route to module 9, on port 2. -/
def routed (s : State) : State :=
  { s with nasum := { s.nasum with route := (Vector.replicate 64 0xFF).set 9 2, ports := 4 } }

theorem witness_PeerEnqueue_peer :
    let s := routed (withRec (task [(1, spad), (3, 9 * 0x10000 + 5)]) false)
    (fld (s.getX 3) 16 6 : BitVec 6) ≠ s.nasum.modNo ∧ s.noRoute (fld (s.getX 3) 16 6) = false ∧ (run []).noRoute 9 = true
      ∧ fld (s.getX 3) 12 4 = (0 : BitVec 4) ∧ fld (s.getX 3) 22 42 = (0 : BitVec 42) ∧ fld (0x8000 : Dword) 12 4 ≠ (0 : BitVec 4)
      ∧ fld (0x400000 : Dword) 22 42 ≠ (0 : BitVec 42) := by decide
theorem witness_PeerEnqueue_depth :
    (withSlot (task []) fun t => { t with tinfo := 0x000000020005FF00 }).slot.taskDepth = 255
      ∧ (withSlot (task []) fun t => { t with tinfo := 0x000000020005FE00 }).slot.taskDepth < 255
      ∧ ((run []).getSlot (run []).arg.n).inPenq = false := by decide
theorem witness_PeerEnqueue_timeout :
    let s := withSlot (run []) fun t => { t with st := .parked, park := .penq 7 true }
    let s := s.modDie (dieOf s.arg.n) fun d => { d with cycle := 7 + 2 ^ 24 }
    (s.getSlot s.arg.n).st = .parked ∧ (s.getSlot s.arg.n).park = .penq 7 true ∧ 7 + 2 ^ 24 ≤ (s.die (dieOf s.arg.n)).cycle := by decide
/-- Each refusal of a window write: no window, full, its depth, a PC below 4, another offset and size; and the header's end. -/
theorem witness_PeerEnqueue_refusals :
    let v : Rec := Rec.ofNat (5 * 2 ^ (7 * 64 + 8))
    let w : Rec := Rec.ofNat 1
    let s : State := { task [] with arg := { q := 5, pa := 0x3F, data := [0] } }
    queue5.win = true ∧ { queue5 with win := false }.win = false ∧ { queue5 with cap := 0 }.room = false
      ∧ (Rec.ofNat 0).depth.toNat ≤ queue5.maxdepth.toNat ∧ (v.depth.toNat = 0 ∨ queue5.maxdepth.toNat < v.depth.toNat)
      ∧ fld w.w0 0 2 ≠ (0 : BitVec 2) ∧ s.arg.pa < 0x40 ∧ s.arg.data.length ≠ 64 ∧ s.queue 5 = some queue5 := by decide
theorem witness_RemoteReduce_actives : (vec32 14 14 []).actives 0 ≠ [] ∧ (vec32 14 14 []).actives 7 = []
    ∧ (vec32 14 14 []).readable 7 (vec32 14 14 []).vlN = true
    ∧ (let s := vec32 14 14 [(9, 0x1000)]
       s.interlocked s.ctx (s.getX 9).toNat (8 * s.vlN) true false = false)
    ∧ (let s := routed (vec32 14 14 [(9, 0x400000000000 + 9 * 2 ^ 40 + 64)])
       (s.getX 9).toNat < 2 ^ 52 ∧ isLocal (s.getX 9) = false ∧ s.phys (s.getX 9).toNat = .peer 9 64) := by decide
/-- Two elements of one range, one element past its end, and a D between two elements. -/
theorem witness_RemoteReduce_elements :
    (let s : State := { ranged [] with arg := { red := { pa := 0x1000, tag := 14, vl := 2, elems := [(0, 5), (1, 6)] } } }
     (s.rangeAt s.arg.red.pa).any fun r => s.arg.red.elems.all fun e =>
      (s.packetElem s.arg.red r e.1).isSome && !s.hostHolds ((s.arg.red.pa + e.1 * r.ebits / 8) / 64) true) = true
    ∧ (let s : State := { ranged [] with arg := { red := { pa := 0x103C, tag := 14, vl := 2, elems := [(0, 5), (1, 6)] } } }
       (s.rangeAt s.arg.red.pa).any fun r => (s.packetElem s.arg.red r 1).isNone && (s.packetElem s.arg.red r 0).isSome) = true
    ∧ (let s : State := { ranged [] with arg := { red := { pa := 0x1002, tag := 14, vl := 1, elems := [(0, 5)] } } }
       (s.rangeAt s.arg.red.pa).any fun r => (r.offOf s.arg.red.pa).getD 0 * 8 % max 1 r.ebits ≠ 0) = true := by decide
/-- A message for module 9 on its way; a POISON line, and one at hand. -/
theorem witness_PeerPackets_forwarded :
    let s := routed (run [])
    (9 : BitVec 6) ≠ s.nasum.modNo ∧ s.noRoute 9 = false ∧ s.poisoned 1 = false ∧ s.hostHolds 1 false = false ∧ s.rangeAt 0x40 = none
      ∧ ({ s with poison := [1] } : State).poisoned 1 = true := by decide
theorem test_packet_combines_two_elements :
    after (exec .remoteReducePacket { ranged [] with arg := { red := { pa := 0x1000, tag := 14, vl := 2, elems := [(0, 5), (1, 6)] } } })
      (fun t => t.ranges.map fun r => (List.range 2).map fun i => r.codeOf ((r.parts).getD i {})) = some [[5, 6]] := by decide

/-! ### Further premises: engines, graphics, memory cores, shader forms -/

/-- A command that names a handle in its upper source field, running or stopped. -/
theorem witness_ShapeRecords_busy :
    let k : Cmd := { cmd3 with er := ((Vector.replicate 64 0).set 8 (5 * 0x100000000 : Dword)).set 11 1 }
    let s : State := { run [(1, 5)] with shapes := [(5, { live := true })], cmds := [k] }
    (s.shapeOf (clusOfCore s.coreNo) (s.getX 1)).isSome = true ∧ s.ownBusy (s.getX 1) = true
      ∧ ({ s with cmds := [{ k with stopped := true }] } : State).ownBusy (s.getX 1) = true ∧ k.slot = s.slotNo ∧ k.names (s.getX 1) = true := by
  decide
/-- A state block that is read, with room for the command and without. -/
theorem witness_EngineInstructions_state :
    let s := ereg [(5, 4, spad)] (run [])
    let m := s.capturedCmd 5
    let v := s.mem.read (2 ^ 53) 64
    let block : Cmd := { m with data := (List.range 8).map fun i => BitVec.ofNat 64 (v / 2 ^ (64 * i)) }
    s.slot.captured = none ∧ s.outOfTurn (s.ctxCmd m) = false
      ∧ s.meetsHeld s.slotNo 5 [s.lockOf (s.ctxCmd m) (s.slot.ereg 5 4).toNat ((s.slot.ereg 5 4).toNat + 64) false] = false
      ∧ (s.gxBlock block).ok = true ∧ s.canIssue s.slotNo 5 [] = true
      ∧ ({ s with cmds := List.replicate 16 block } : State).canIssue s.slotNo 5 [] = false := by decide
/-- A barrier whose turn in the cycle is over, one that an arm would carry past its width, and counts at both ends. -/
theorem witness_StageBarriers_turns :
    let s := run [(1, 0xFFFFFFFF), (2, 0x100000000)]
    let at_ (q : StageBar) : State := s.setSbar s.coreNo 3 q
    let late := at_ { cyc := s.now, rank := 3 }
    let wide := at_ { st := .opened, expect := 1 }
    (late.sbar 3).cyc = late.now ∧ ¬(late.sbar 3).rank ≤ 0 ∧ ¬(late.sbar 3).rank ≤ 2
      ∧ (wide.sbar 3).st = .opened ∧ 2 ^ 32 ≤ (wide.sbar 3).expect.toNat + (s.getX 1).toNat ∧ 2 ^ 32 ≤ (s.getX 2).toNat
      ∧ (s.getX 1).toNat < 2 ^ 32 ∧ (s.sbar 3).rank ≤ 0 ∧ ((at_ { st := .overshoot, got := 7 }).sbar 3).st = .overshoot := by decide
theorem test_sb_reset_is_late : after (exec (.sbReset 3) ((run []).setSbar 0 3 { st := .done, cyc := (run []).now, rank := 3 })) (·.slot.hold)
    = some true := by decide
/-- A binner whose open batch can be closed, and one that waits for a batch to leave it. -/
theorem witness_Graphics_forms :
    let m (w : BitVec 32) : Cmd := { id := 4, slot := 0, eng := 5, word := w }
    let b : Batch := { prims := [prim 0] }
    let s := withCmd (m 0xA2820000) (run [])
    (m 0xA2800000).gxForm = 0 ∧ (m 0xA2820000).gxForm = 2 ∧ (m 0xA2830000).gxForm = 3 ∧ (m 0xA2810000).gxForm = 1
      ∧ (s.binnerQueue (dieOf (m 0).slot)).head?.map Cmd.id = some 4 ∧ (s.die 0).gfx.canClose = true
      ∧ ({ fill := b, replay := some b } : Gfx).canClose = false ∧ (({} : Gfx).newState target).isSome = true
      ∧ (({ fill := b, replay := some b, cur := some {} } : Gfx).newState target).isNone = true
      ∧ s.outOfTurn (s.ctxCmd (m 0xA2820000)) = false := by decide
/-- A write outside the write range at both its ends, and counts out of their range. -/
theorem witness_MemoryCore_ranges :
    let s := mcrun [(1, 0), (2, 2049), (6, spad + 0xFFF), (7, 1), (8, spad + 0x1800)]
    (match s.mcs with
      | [r] =>
        (r.get 6).toNat < (r.cmd.reg 9).toNat && (r.cmd.reg 9).toNat + (r.cmd.reg 10).toNat < (r.get 8).toNat + (r.get 7).toNat
          && 1 ≤ (r.get 7).toNat && (r.get 7).toNat ≤ 2048 && (r.get 1).toNat = 0 && 2048 < (r.get 2).toNat && s.deliverTurn r.cmd
          && s.cmd r.cmd.id = some r.cmd && partCount (r.lo, r.hi) = 1
      | _ => false) = true := by decide
/-- mc.wr just below the write range: MCFAULT with reason 4 (R347). -/
theorem test_mc_wr_outside : after (exec (.mcWr 1 6 7) (mcrun [(6, spad + 0xFFF), (7, 1)])) (fun t =>
    (t.mcs.length, t.inbox.map fun e => (e.2.trap.cause, (fld e.2.trap.txval 56 8 : BitVec 8)))) = some (0, [(21, 4)]) := by decide

/-! ### Further premises: control, traps, commands -/

/-- A core with a vector instruction that slot 1 has not completed. -/
def waiting : State :=
  { run [(1, 4)] with others := [(1, { Slot.reset with st := .running, hold := true, ir := 0x64853248 })] }

theorem witness_ControlRegisters_lanes :
    waiting.lanesWait 3 4 = true ∧ waiting.lanesHeld 0 4 = true ∧ waiting.lanesHeld 0 8 = false ∧ (run [(1, 4)]).lanesHeld 0 4 = false
      ∧ (run []).lanesWait 0x21 4 = false := by decide
/-- The pair that follows the prefix: an add of two registers under SAT, the word inside a body, and none in it. -/
theorem witness_Prefix_pairs :
    (match (pair 0x08611000).pairWord with
      | .ok w t =>
        let z : State := { t with slot := { t.slot with pfx := (pair 0x08611000).slot.ir, ir := w, npc := t.slot.pc + 8 } }
        decode w = some (.add 3 1 2) && z.slot.mods.isSome && !z.slot.lm
      | _ => false) = true
      ∧ (let b := withSlot (run []) fun t => { t with loop := true, body := [0, 0x08611000], bpos := 0 }
         b.slot.loop = true ∧ b.slot.body[b.slot.bpos.toNat + 1]? = some 0x08611000) ∧ (pair 0).slot.loop = false := by decide

/-- A slot that has taken its link words, resumes at an element and holds a counted arrival. -/
def carrying (t : Slot) : Slot := { t with linked := true, restart := some 3, arrTok := some 9 }

theorem witness_Traps_carried :
    (withSlot handler carrying).slot.linked = true ∧ handler.slot.linked = false ∧ handler.slot.arrTok = none
      ∧ (withSlot handler carrying).releaseLinks.slot.arrTok = some 9 ∧ (withSlot handler carrying).releaseLinks.slot.deliversLocally { cause := 5 } = true
      ∧ (withSlot handler fun t => { t with tcause := 0xC0C0000000000000, txval := 9 }).slot.tcause.getLsbD 62 = true := by decide
/-- A trap at an element of an instruction whose arrival is counted saves both; tret gives both back (R376). -/
theorem test_trap_carries : (let q := ((withSlot handler carrying).takeTrap { cause := 3, tval := 7 }).slot
      ((fld q.tcause 54 2 : BitVec 2), (fld q.tcause 32 16 : BitVec 16), q.txval, q.restart, q.arrTok)) = (3, 3, 9, none, none)
    ∧ after (exec .tret (withSlot handler fun t => { t with tcause := 0x80C0000300000001, txval := 9 }))
      (fun t => (t.slot.restart, t.slot.arrTok)) = some (some 3, some 9) := by decide
/-- Slot 1 in another tree, a request that is refused at each code, and a command that FRES issues again. -/
theorem witness_CommandRegisters_codes :
    (let child : Region := { region2 with handle := 3, parent := 2 }
     let other : Region := { region2 with handle := 4 }
     let s := withSlot { task [] with regions := [region2, child, other] } fun t => { t with tinfo := 0x0000000300050300 }
     s.sameTree 4 s.slot.regionH = false ∧ (s.path s.slot.regionH).contains 2 = true ∧ (s.region 4).isSome = true
      ∧ s.sameTree 2 s.slot.regionH = true ∧ (fld (0x300000004 : Dword) 32 2 : BitVec 2).toNat = 3
      ∧ s.queue (fld (7 : Dword) 0 16 : BitVec 16).toNat = none
      ∧ (let q : State := { s with queues := [{ queue5 with region := 4 }] }
         (q.queue (fld (5 : Dword) 0 16 : BitVec 16).toNat).any fun k => !q.sameTree k.region q.slot.regionH) = true)
    ∧ fld (0x1000 : Dword) 56 8 = (0 : BitVec 8) ∧ fld (0x1000 : Dword) 1 11 = (0 : BitVec 11) ∧ (fld (0x1002 : Dword) 1 11 : BitVec 11) ≠ 0
    ∧ (let s : State := { faulted with cmds := [{ cmd3 with slot := 1, stopped := true }], arg := { n := 1 } }
       (s.getSlot s.arg.n).st = .faulted ∧ ∃ m ∈ (s.reissue 1).cmds, m.slot = 1) := by decide
/-- TLBINV of a page leaves the translations of other pages. -/
theorem test_tlbinv :
    (let e (n : BitVec 44) : TlbEntry := { root := 0x10000, vpn := n, level := 0, pte := 0xFF }
     let s := { task [] with regions := [{ region2 with root := 0x10000 }] }
     let s := s.updCore fun c => { c with tlb := [e 1, e 2] }
     ((s.command 0x73 0x1000).2.core.tlb.map TlbEntry.vpn, (s.command 0x73 0x1001).2.core.tlb.length, (s.command 0x73 0x1002).1))
      = ([2], 0, 0x8000000000000002) := by decide

/-! ### Further premises: dispatch, homes, the host, steps -/

/-- A RESUME entry of a team that is gone, with nothing else to grant. -/
theorem witness_Dispatchers_dead :
    let r : Rec := { w0 := 0x4000 + 2 ^ 58 + 2 ^ 57, w1 := 0x0001000500000002 }
    let s : State := { task [] with queues := [{ queue5 with entries := [r] }], slot := Slot.reset }
    r.resume = true ∧ s.hasDead 0 = true ∧ (s.dropDead 0).answerable 0 = none ∧ (s.dropDead 0).dispatching 0 = true := by decide

/-- Two stages of a pipeline: stage 1 starved with quota to give, stage 2 backlogged. -/
def stages : State :=
  let k : Queue := { queue5 with pipe := 3, cap := 4 }
  { task [] with queues := [{ k with stage := 1, minslots := 4, quota := 12 },
      { k with num := 6, stage := 2, quota := 8, maxslots := 16, entries := [{ w0 := 0x4000 }, { w0 := 0x4000 }] }] }

theorem witness_Dispatchers_governor :
    (stages.queues.map Queue.num).Nodup ∧ stages.pipes 0 = [3]
      ∧ (match stages.queues with
        | [a, b] => queueDie a.num = 0 && queueDie b.num = 0 && stages.stageState a = .starved && stages.stageState b = .backlogged
            && a.minslots.toNat + 8 ≤ a.quota && b.quota + 8 ≤ b.maxslots.toNat && a.num ≠ b.num && stages.stageState b ≠ .starved
        | _ => false) = true := by decide
theorem test_governor_moves : after (exec .stageGovernorEvaluation stages) (fun t => t.queues.map Queue.quota) = some [4, 16] := by decide

/-- A copy that outlives the reader's time, an owner's copy with its home, and lines in and out of their home slice. -/
theorem witness_Homes_copies :
    let c : SliceCopy := { die := 7, line := 0x20, owned := true, wts := 5, rts := 64 }
    let s : State := { run [] with arg := { die := 7, line := 0x20, t := 64 }, slices := [c], homes := [(0x20, { st := .modified, own := 7 })] }
    s.sliceOf 7 0x20 = some c ∧ s.arg.t ≤ c.rts ∧ c.owned = true ∧ (s.home 0x20).st = .modified ∧ (s.home 0x20).own = 7
      ∧ s.pinnedLine 7 0x20 = false ∧ (s.home 0x20).held = false ∧ s.cachedLines 0 < cacheLines ∧ (∀ e, s.cachedLines e < cacheLines)
      ∧ (let t := s.setHome 0x20 { held := true, written := true }
         (t.home 0x20).held = true ∧ (t.home 0x20).written = true ∧ t.pinnedLine (homeDie (0x20 * 64)) 0x20 = false)
      ∧ ({ ranged [] with arg := { line := 0x40 } } : State).pinnedLine (homeDie 0x1000) 0x40 = true := by decide
theorem witness_Homes_tables :
    let s := { paged with mem := Memory.write (Memory.write (Memory.write [] 0x10000 8 0x11001) 0x11000 8 0x12001) 0x12000 8 0xFF }
    let z := s.focus s.arg.n
    z.rootOf z.slot = 0x10000 ∧ z.slot.mode = 0 ∧ s.mem.read 0x10000 8 = 0x11000 + 1 ∧ s.mem.read 0x11000 8 = 0x12000 + 1
      ∧ s.mem.read 0x12000 8 = 0 + 0xFF ∧ (fld s.arg.va 30 26 : BitVec 26) = 0
      ∧ (∀ a ∈ [0x10000, 0x11000, 0x12000], s.poisoned (a / 64) = false ∧ (s.home (a / 64)).host = false) := by decide
/-- The last replay that may fail, one before a loss for want of a flit, and a lost seam. -/
theorem witness_Homes_seams :
    let s (e : Die → Die) : State := ({ run [] with cycle := 2 ^ 16 }).modDie 0 e
    ((s fun e => { e with replays := 31 }).die 0).replays = 31 ∧ ((s fun e => { e with replays := 32 }).die 0).replays = 32
      ∧ ((s fun e => { e with waitFrom := some 0 }).die 0).waitFrom = some 0 ∧ 0 + 2 ^ 16 ≤ (s id).cycle ∧ ((s id).die 0).lost = false
      ∧ (s id).busySlots 1 = [] ∧ ((s fun e => { e with lost := true }).die 0).lost = true := by decide
/-- A write of the hardware that waits for the host's answer, and a copy on another die than the line's home. -/
theorem witness_Host_deferred :
    let c : SliceCopy := { die := 7, line := 1, owned := false, wts := 0, rts := 64 }
    let s : State := { run [] with arg := { line := 1 }, bisnp := [1], deferred := [{ pa := 64, n := 8, v := 5, add := false }], slices := [c] }
    s.bisnp.contains 1 = true ∧ s.hasDeferred 1 = true ∧ (run []).hasDeferred 1 = false
      ∧ (∀ k ∈ s.slices, k.line = 1 → k.die ≠ homeDie 64 ∧ (k.owned = true → (s.home 1).st = .modified ∧ (s.home 1).own = k.die)) := by decide
/-- The instruction that a wake-up runs again comes before the trap that is due; no word there is held by a fence. -/
theorem witness_Step_woken :
    let p := withSlot (State.reset.withFetchWord 32 0x04420008) fun t => { t with woken := true, hold := true, ir := 0x80000004, tasklim := 1, taskcyc := 1 }
    p.slot.woken = true ∧ p.slot.limitDue = true ∧ p.inbox = [] ∧ p.agents = [.turn p.slotNo] ∧ decode p.slot.ir = some .done := by decide
/-- A BC7 block of mode 6 with red 255 at its first end, and the void extents of ASTC: the top 8 bits, the error colour for
HDR (R334). -/
theorem test_texel_blocks : bc7Texel (0x40 + 127 * 2 ^ 7 + 2 ^ 63) 0 0 = [255, 1, 1, 1]
    ∧ astcTexel 4 4 (0xFFFFFFFFFFFFFDFC + 0xFF00FFFF40008000 * 2 ^ 64) 3 3 = [0x80, 0x40, 0xFF, 0xFF]
    ∧ astcTexel 4 4 (0xFFFFFFFFFFFFFFFC + 0xFF00FFFF40008000 * 2 ^ 64) 0 0 = [255, 0, 255, 255] := by decide

/-! ### Further premises: accesses, ranges, windows, translations -/

/-- Device memory whose line 0x40 is POISON. -/
theorem witness_Misplaced_poison :
    let s : State := { run [(1, 0x1000)] with poison := [0x40] }
    s.slot.mode = 2 ∧ (s.getX 1).toNat < 2 ^ 40 ∧ (s.getX 1).toNat % 8 = 0 ∧ s.touchesRange (s.getX 1).toNat 8 = false
      ∧ s.poisoned ((s.getX 1).toNat / 64) = true := by decide
theorem test_poison_traps : after (exec (.ldD 3 1 0 0) { run [(1, 0x1000)] with poison := [0x40] })
    (fun t => (t.slot.st, t.slot.faultRec.map fun r => (r.key, r.arg2))) = some (.faulted, some (22, 0x1000)) := by decide

/-- The turn of each mode of a vector access, and one that resumes at its last element. -/
theorem witness_VectorAccesses_turn :
    (vmem 2).VTurnOk 0 9 0 false 0 ∧ (vmem 2).VTurnOk 1 9 10 true 3 ∧ (vmem 2).VTurnOk 3 0 2 false 0
      ∧ (vmem 2).pending 0 = [0, 1] ∧ (withSlot (vmem 2) fun t => { t with restart := some 1 }).pending 0 = [1] := by
  unfold State.VTurnOk; decide
/-- The second of two elements: misaligned, outside the local map's rows, and malformed. -/
theorem witness_VectorAccessesStop :
    let s (b : Nat) : State := withSlot (vec 2 [(9, spad)]) fun t => { t with v := t.v.set 2 { data := BitVec.ofNat 2048 (b * 2 ^ 64) } }
    (s 4).VMemOk 2 true 3 9 2 0 ∧ (s 4).VMemOk 2 false 1 9 2 0 ∧ (s 4).VTurnOk 2 9 2 true 0 ∧ 1 ∈ (s 4).pending 0
      ∧ ((s 4).elemAddr 2 9 2 1).toNat % 8 ≠ 0 ∧ ((s 4).elemAddr 2 9 2 1).toNat < 2 ^ 56
      ∧ ((s 0x30000).elemAddr 2 9 2 1).toNat % 8 = 0 ∧ locOf 0 ((s 0x30000).elemAddr 2 9 2 1) 8 = .bad
      ∧ 2 ^ 56 ≤ ((s (2 ^ 56)).elemAddr 2 9 2 1).toNat ∧ (s 4).RawAt ((s 4).elemAddr 2 9 2 0) 8 (2 ^ 53) true := by
  refine ⟨?_, ?_, ?_, by decide, by decide, by decide, by decide, by decide, by decide, rawAt_of (by decide)⟩ <;>
    (try unfold State.VMemOk State.Groups) <;> (try unfold State.VTurnOk) <;> decide
/-- The element below the one that traps has been stored; the trap names element 1. -/
theorem test_vector_store_stops :
    after (exec (.vstx 1 9 2 0 0) (withSlot (vec 2 [(9, spad)]) fun t => { t with tvec := 1, v := t.v.set 2 { data := 4 * 2 ^ 64 } }))
      (fun t => (t.mem.read (2 ^ 53) 16, fld t.slot.tcause 0 16, fld t.slot.tcause 32 16, t.slot.tval)) = some (5, 4, 1, spad + 4) := by decide
/-- Two active elements at one address (R251). -/
theorem witness_VectorAtomics_duplicates :
    let s := withSlot (vatom true) fun t => { t with v := t.v.set 4 { data := BitVec.ofNat 2048 (spad.toNat + spad.toNat * 2 ^ 64) } }
    s.elem 4 64 0 = s.elem 4 64 1 ∧ s.elem 4 64 0 ≠ 0 ∧ s.complete 4 = true
      ∧ after (exec (.vamoAdd 6 4 0 0 0 0 1) s) (fun t => (t.mem, t.slot.faultRec.map fun r => (r.key, r.arg2))) = some ([], some (6, spad)) := by
  decide

/-- An element of a declared range with U copies of two cores, its line free of the host. -/
theorem witness_RangeStores :
    let s := ranged [(1, 0x1004), (2, 3)]
    let u : State := { s with ranges := s.ranges.map fun r => { r with ucopies := [⟨0, 1, { acc := 5 }, 7⟩, ⟨9, 1, { acc := 6 }, 9⟩] } }
    s.slot.mode = 2 ∧ (s.getX 1).toNat < 2 ^ 40 ∧ s.poisoned 0x40 = false ∧ (u.rangeAt 0x1004).isSome = true
      ∧ ((u.rangeAt 0x1004).any fun r => r.offOf 0x1004 = some 4 && 8 * 4 = r.ebits && 4 * 8 % r.ebits = 0 && 8 * 8 ≠ r.ebits) = true
      ∧ u.hostHolds 0x40 true = false ∧ u.interlocked (u.ctxC 0) 0x1004 4 true false = false
      ∧ u.interlocked (u.ctxC 0) 0x1004 4 false false = false := by decide
/-- Two instructions, one after the other. -/
def andThen (i j : Instr) (s : State) : Out :=
  match exec i s with
  | .next t => exec j t
  | o => o
/-- A contribution changes no memory; a load collects the contributions of its line, 3 to the partial of element 1. -/
theorem test_range_contributes :
    after (exec (.stW 2 1 0 0) (ranged [(1, 0x1004), (2, 3)])) (fun t => (t.mem.read 0x1004 4, t.ranges.map fun r => r.ucopies.map fun u => (u.core, u.elem, u.part.acc)))
      = some (0, [[(0, 1, 3)]])
    ∧ after (andThen (.stW 2 1 0 0) (.ldW 3 1 0 0) (ranged [(1, 0x1004), (2, 3)]))
      (fun u => (u.getX 3, u.mem.read 0x1004 4, u.ranges.map fun r => r.ucopies.length)) = some (3, 3, [0]) := by decide

/-- Slot windows: 1 decodes bf16 as f32 at the scratchpad's start, 2 shows planes of i4 there (R210). -/
def windowed (l : List (RegNo × Dword)) : State :=
  withSlot (run l) fun t => { t with wfmt := (t.wfmt.set 1 0x2301).set 2 0x1102 }

theorem witness_Windows :
    wfmtKind 0x2301 = 1 ∧ tagReg (wfmtView 0x2301) = 32 ∧ tagMem (wfmtStore 0x2301) = 16 ∧ wfmtKind 0x1102 = 2 ∧ wfmtStore 0x1102 < 22
      ∧ locOf 0 0xFE000000100004 4 = .win 1 4 ∧ locOf 0 0xFE000000200000 1 = .win 2 0
      ∧ (let b := windowBytes 0x2301 4 8
         (windowed []).interlocked ((windowed []).ctxC 0) (keySpad 0 b.1) (b.2 - b.1) false true = false
          ∧ (windowed []).interlocked ((windowed []).ctxC 0) (keySpad 0 b.1) (b.2 - b.1) true true = false)
      ∧ (withSlot (windowed []) fun t => { t with frm := 6 }).slot.frm.toNat = 6 := by decide
/-- 1.0 of f32 stored as bf16, read back as f32, and a byte access that the window does not take (R212). -/
theorem test_decode_window :
    after (exec (.stW 2 1 0 0) (windowed [(1, 0xFE000000100004), (2, 0x3F800000)])) (fun t => t.mem.read (2 ^ 53) 4) = some 0x3F800000
    ∧ after (exec (.ldW 3 1 0 0) { windowed [(1, 0xFE000000100004)] with mem := [(2 ^ 53 + 2, 0x80), (2 ^ 53 + 3, 0x3F)] }) (·.getX 3) = some 0x3F800000
    ∧ after (exec (.ldB 3 1 0 0) (windowed [(1, 0xFE000000100004)])) (fun t => t.slot.faultRec.map Rec.key) = some (some 4) := by decide

/-- A walk from ROOT to a leaf of 1 GiB for a user slot, a table entry that the TLB holds, and ROOT 0. -/
def pagedUser : State := withSlot paged fun t => { t with x := t.x.set 1 0x1238 }

theorem witness_Translation :
    let z := pagedUser
    let held := z.updCore fun c => { c with tlb := [{ root := 0x10000, vpn := 1, level := 2, pte := 0xFF }] }
    z.slot.mode ≠ 2 ∧ z.rootOf z.slot = 0x10000 ∧ z.nodeOk 0x10000 = true ∧ tlbFind z.core.tlb 0x10000 0x1238 = none
      ∧ (tlbFind held.core.tlb 0x10000 0x1238).isSome = true ∧ (task []).rootOf (task []).slot = 0
      ∧ z.poisoned (0x10000 / 64) = false ∧ z.hostHolds (0x10000 / 64) false = false ∧ z.hostHolds (0x12000 / 64) true = false
      ∧ pteMalformed 4 0x11001 = false ∧ pteMalformed 2 0x3F = false ∧ pteAllows 0 .read 0x3F = true ∧ pteAllows 0 .write 0x37 = false
 := by decide
theorem witness_Translation_walks : okR (pagedUser.walk (pagedUser.ctxC 0) 0x1238 .read 4 0x10000) = true := by decide
theorem witness_Translation_access : okR (pagedUser.translate (pagedUser.ctxC 0) 0x1238 .read) = true := by decide
/-- A page fault of a store where W is 0: cause 11, level 2, reason 2 (R386). -/
theorem test_page_fault :
    (match ({ pagedUser with mem := paged.mem.write 0x12000 8 0x37 } : State).walkFill (pagedUser.ctxC 0) 0x1238 .write with
      | .trap i _ => some (i.cause, i.tval, i.txval)
      | _ => none) = some (11, 0x1238, 0x22) := by decide

/-! ### Further premises: records, waits, engines, commands -/

/-- A full queue, a launch of no team, and one of two teams into two entries. -/
theorem witness_Records_room :
    let full : State := { task [] with queues := [{ queue5 with cap := 0 }] }
    let s := withRec (task [(1, spad), (2, 5), (3, 2)]) true
    let r := Rec.ofNat (s.mem.read (2 ^ 53) 64)
    (full.queue 5).any (fun k => !k.room) = true ∧ (fld ((task []).getX 3) 0 32 : BitVec 32) = 0 ∧ (fld (s.getX 3) 0 32 : BitVec 32) = 2
      ∧ r.team = true ∧ fld (s.getX 2) 9 55 = (0 : BitVec 55) ∧ s.slot.fences = []
      ∧ (let z := s.placeTeam 3 5 r
         (s.launchQueue 5 0).map Queue.num = some 5 ∧ (z.launchQueue 5 1).map Queue.num = some 5
          ∧ (z.queues.all Queue.room) = true ∧ (fld (z.getX 3) 32 32 : BitVec 32) = 1 ∧ z.outstanding 0xFFFF 5 = false
          ∧ (z.region 2).any (fun g => r.teamSize ≤ g.budget.toNat) = true) := by decide
/-- Two teams launched in one go; one parks behind a full queue (R176, R196). -/
theorem test_launch_places_teams :
    after (exec (.launch 3 1 2) (withRec (task [(1, spad), (2, 5), (3, 2)]) true)) (fun t => (t.getX 3, t.queues.map fun k => k.entries.length))
      = some (0x200000000, [2])
    ∧ after (exec (.launch 3 1 2) { withRec (task [(1, spad), (2, 5), (3, 2)]) true with queues := [{ queue5 with cap := 1 }] })
      (fun t => (t.getX 3, t.slot.st, t.slot.launch, t.queues.map fun k => k.waiters.length)) = some (0x100000001, .parked, some 3, [1]) := by decide
/-- A bar.sync that is not the last arrival counts and parks. -/
theorem test_bar_sync_parks : after (exec (.barSync 15) (member [])) (fun t => (t.slot.st, t.teams.map fun k => ((k.bar 15).count, (k.bar 15).arrived)))
    = some (.parked, [(1, 2)]) := by decide
/-- What waits is issued as it was captured: another completion word does not count (R273). -/
theorem witness_EngineInstructions_retry :
    let s := run []
    let m := s.capturedCmd 3
    let w := withSlot (ereg [(3, 2, 1)] s) fun t => { t with captured := some m }
    w.slot.captured = some m ∧ w.namesLink [1, 2] = false ∧ w.canIssue m.slot 3 m.locks = true
      ∧ after (exec (.peClear 0 0) w) (fun t => t.cmds.map fun k => k.reg 2) = some [0] := by decide
/-- Operands read ahead of a step, C read and the tile read ahead; a step word and an entry that a wait left kept. -/
theorem witness_PlaneChain_kept :
    let m := planeCmdOf 2
    let s : State := { withCmd m plane with arg := { c := 4, t := 1 } }
    s.arg.t = 1 ∧ m.snap = [] ∧ m.pos + m.snap.length / 4 < m.ns
      ∧ pastSpad (stepBytes (m.reg 16) m.wa (m.reg 17) m.wb 0 1) = none
      ∧ (s.mmaOperands m 0).length = 4 ∧ ({ m with snap := s.mmaOperands m 0 } : Cmd).snap ≠ []
      ∧ after (exec .peMmaStep s) (fun t => t.cmds.map fun k => k.snap.length) = some [4]
      ∧ (let c (d : List Dword) : State := withCmd { (chain 1 1).capturedCmd 4 with id := 4, data := d } (chain 1 1)
         (c [0x5000]).cmd 4 = some { (chain 1 1).capturedCmd 4 with id := 4, data := [0x5000] }
          ∧ (c [0x1000, spad + 0x110, 0]).cmd 4 = some { (chain 1 1).capturedCmd 4 with id := 4, data := [0x1000, spad + 0x110, 0] }) := by decide
/-- A stopped step of the chain goes on with the word that it has read: memory there has changed (R307). -/
theorem test_chain_keeps_its_word :
    after (exec .chainStep { withCmd { (chain 1 1).capturedCmd 4 with id := 4, data := [0x7000] } (chain 1 1) with mem := [] })
      (fun t => t.inbox.map fun e => (e.2.trap.cause, e.2.trap.txval)) = some [(19, 0x10000)] := by decide
/-- An access on its way, a TLBINV that is refused and one that is not; sys behind a fence; a packet before a record. -/
theorem witness_Commands_waits :
    let f : PendFence := { cmds := [3], peer := false, packets := false, after := 0, scope := 2, all := false, next := 4 }
    (withSlot (run []) fun t => { t with unacked := 1 }).inFlight = true ∧ (run []).inFlight = false
      ∧ (fld (2 : Dword) 1 11 : BitVec 11) ≠ 0 ∧ fld (0x1000 : Dword) 1 11 = (0 : BitVec 11)
      ∧ (withSlot (run []) fun t => { t with fences := [f] }).slot.fences ≠ [] ∧ (faulted.getSlot 1).packets = 0 := by decide
theorem test_tlbinv_waits :
    after (exec (.crw 0 1 0x73) (withSlot (run [(1, 0x1000)]) fun t => { t with unacked := 1 })) (·.slot.hold) = some true
    ∧ after (exec (.crw 3 1 0x73) (withSlot (run [(1, 2)]) fun t => { t with unacked := 1 })) (·.getX 3) = some 0x8000000000000002 := by decide
theorem test_sys_waits_for_a_fence :
    after (exec .sys (withSlot (busy handler) fun t => { t with fences := [{ cmds := [3], peer := false, packets := false, after := 0, scope := 2, all := false, next := 4 }] }))
      (fun t => (t.slot.hold, t.slot.busy)) = some (true, false) := by decide
/-- A line in its home slice, and room for one that is not. -/
theorem witness_Host_room :
    let s : State := { run [] with homes := [(1, { held := true })] }
    (s.home 1).held = true ∧ s.cachedLines (homeDie 64) < cacheLines ∧ (s.home 2).held = false := by decide
/-- Behind a load in class 1 that awaits its reply, a store in class 2 may be performed, one in class 1 or of the result may not
(R423). -/
theorem test_early_store :
    let s (i : Instr) : State := { run [(2, 0x3000), (4, 7)] with mem := Memory.write [] 0x1000 4 i.encode.toNat }
    let go (i : Instr) : Option (Nat × BitVec 56) :=
      (State.earlyStep { cls := [1], regs := [3] } (s i)).map fun u => (u.2.mem.read 0x3000 8, u.2.slot.pc)
    go (.stD 4 2 2 0) = some (7, 0x1004) ∧ go (.stD 4 2 1 0) = some (0, 0x1004) ∧ go (.stD 3 2 2 0) = some (0, 0x1004) := by decide

/-- A device atomic of 4, 8 or 16 bytes, outside every range (R222, R249). -/
theorem witness_Atomics_device :
    let s := run [(1, 0x3000)]
    (∃ look write, s.AtomicAt (s.src [] 1) 8 0x3000 0 look write) ∧ (∃ look write, s.AtomicAt (s.src [] 1) 16 0x3000 0 look write) :=
  ⟨⟨_, _, .inr ⟨deviceAt_of (by decide), deviceAt_of (by decide), by decide, rfl, rfl⟩⟩,
    ⟨_, _, .inr ⟨deviceAt_of (by decide), deviceAt_of (by decide), by decide, rfl, rfl⟩⟩⟩
/-- amo.add in device memory returns the old value; so does each element of a vector one. -/
theorem test_device_atomics :
    after (exec (.amoAdd 2 1 0 0 0 0 1) { run [(1, 0x3000), (2, 5)] with mem := [(0x3000, 9)] })
      (fun t => (t.getX 2, t.mem)) = some (9, [(0x3000, 14)])
    ∧ after (exec (.vamoAdd 6 4 0 0 0 0 1)
        { withSlot (vatom false) fun t => { t with v := t.v.set 4 { data := 0x3000 + 0x3048 * 2 ^ 64 } } with mem := [(0x3000, 9)] })
      (fun t => (t.mem, t.elem 6 64 0)) = some ([(0x3000, 12)], 9) := by decide
theorem witness_VectorAtomics_device :
    let s := withSlot (vatom false) fun t => { t with v := t.v.set 4 { data := 0x3000 + 0x3048 * 2 ^ 64 } }
    [0, 1].map (fun i => s.elem 4 64 i) = [0x3000, 0x3048] ∧ s.DeviceAt 0x3000 8 false ∧ s.DeviceAt 0x3000 8 true
      ∧ s.DeviceAt 0x3048 8 false ∧ s.DeviceAt 0x3048 8 true :=
  ⟨by decide, deviceAt_of (by decide), deviceAt_of (by decide), deviceAt_of (by decide), deviceAt_of (by decide)⟩

/-- An emission that an unacknowledged packet holds back, and one that has read its image (R193). -/
theorem witness_Records_latched :
    let s := withRec (task [(1, spad), (2, 5)]) false
    let w := withSlot s fun t => { t with packets := 1 }
    let v := BitVec.ofNat 1024 (Rec.ofNat (s.mem.read (2 ^ 53) 64)).toNat
    s.slot.block = none ∧ w.slot.block = none ∧ w.outstanding 0xFFFF 5 = true ∧ s.outstanding 0xFFFF 5 = false
      ∧ (Rec.ofNat v.toNat).reservedSet = false ∧ fld (Rec.ofNat v.toNat).w0 0 2 = (0 : BitVec 2) := by decide
/-- The image that the emission has read is enqueued, not what stands in memory when it goes on (R193). -/
theorem test_emit_keeps_its_image :
    let w := withSlot (withRec (task [(1, spad), (2, 5)]) false) fun t => { t with packets := 1 }
    after (exec (.emit 0 1 2) w) (fun t => (t.slot.hold, t.queues.map fun k => k.entries.length)) = some (true, [0])
    ∧ (match exec (.emit 0 1 2) w with
        | .next t => after (exec (.emit 0 1 2) { withSlot t fun q => { q with packets := 0 } with mem := [] })
          fun u => (u.queues.flatMap Queue.entries).map Rec.pc
        | _ => none) = some [0x4000] := by decide

/-- The line of D is POISON; a peer's load whose line the host holds (R413, R423, R430). -/
theorem witness_Packets_poison :
    let s : State := { ranged [] with poison := [0x40], arg := { red := { pa := 0x1000, tag := 14, vl := 1 } } }
    s.poisoned (s.arg.red.pa / 64) = true
      ∧ (let h : State := { run [] with homes := [(1, { host := true, hostMod := true })] }
         h.poisoned 1 = false ∧ h.hostHolds 1 false = true) := by decide
/-- A packet whose D lies in a POISON line is discarded whole, though no element of it is active there. -/
theorem test_packet_poison :
    after (exec .remoteReducePacket { ranged [] with poison := [0x40], arg := { red := { pa := 0x1000, tag := 14, vl := 1 } } })
      (fun t => t.inbox.map fun e => e.2.ack) = some [.refused] := by decide

/-- The U copies after a contribution fit the core's L1 (R221, R225). -/
theorem witness_RangeStores_room :
    let s := ranged [(1, 0x1004), (2, 3)]
    (s.ranges.map fun r => (s.setRange { r with ucopies := [{ core := 0, elem := 1, part := {}, ts := 1 }] }).uSlots 0) = [1]
      ∧ 1 ≤ l1Lines := by decide

/-- The word after a prefix can be fetched outside firmware mode too; a prefix with a reserved bit decodes to nothing (R66). -/
theorem witness_Prefix_fetch :
    let s := withSlot (run []) fun t => { t with mode := 1, loop := true, body := [0, 0x08611000], bpos := 0 }
    okR s.pairWord = true ∧ s.slot.mode ≠ 2 ∧ decode 0xFFFFFFFF = none ∧ fld (0xFFFFFFFF : BitVec 32) 26 6 = (0x3F : BitVec 6) := by
  decide

/-- A build whose inputs overlap its nodes. -/
theorem witness_PlaneChain_overlap :
    let er : Vector Dword 64 :=
      (((((Vector.replicate 64 0).set 4 spad).set 5 2).set 6 spad).set 7 (spad + 0x2000)).set 8 (spad + 0x3000)
    let m : Cmd := { id := 4, slot := 0, eng := 6, word := 0, er := er.set 9 16 }
    let s := withCmd m (run [])
    s.bvMeets (s.ctxCmd m) m = true ∧ m.snap = [] ∧ okR (State.readBoxes (s.ctxCmd m) m m.bvN 0 s) = true := by decide
/-- Where a load stops, its progress index is that element (R153). -/
theorem test_vector_load_stops :
    after (exec (.vldx 3 9 2 0 0) (withSlot (vec 2 [(9, spad)]) fun t => { t with tvec := 1, v := t.v.set 2 { data := 4 * 2 ^ 64 } }))
      (fun t => (t.progOf 3 1 64, fld t.slot.tcause 32 16)) = some (some 1, 1) := by decide

end Sys2Proof.Tests
end

section
/-! PROOFS. Commutative ranges are declared and dropped (R220, R224, R227, R255, R256). -/

namespace Sys2Proof.Machine

/-! ### What a local access leaves as it was -/

@[simp] theorem State.touchKey_ranges (s : State) (c : CoreNo) (k : Nat) (wr : Bool) :
    (s.touchKey c k wr).ranges = s.ranges := by
  rw [s.touchKey_same c k wr]

@[simp] theorem State.touchKey_queues (s : State) (c : CoreNo) (k : Nat) (wr : Bool) :
    (s.touchKey c k wr).queues = s.queues := by
  rw [s.touchKey_same c k wr]

@[simp] theorem State.touchKey_touchesRange (s : State) (c : CoreNo) (k : Nat) (wr : Bool) (pa n : Nat) :
    (s.touchKey c k wr).touchesRange pa n = s.touchesRange pa n := by
  simp [State.touchesRange]

@[simp] theorem State.touchKey_pinned (s : State) (c : CoreNo) (k : Nat) (wr : Bool) (d : DieNo) :
    (s.touchKey c k wr).pinned d = s.pinned d := by
  simp [State.pinned, State.pinnedQueues]

@[simp] theorem State.touchKey_outstanding (s : State) (c : CoreNo) (k : Nat) (wr : Bool) (m : BitVec 16) (n : Nat) :
    (s.touchKey c k wr).outstanding m n = s.outstanding m n := by
  simp [State.outstanding]

@[simp] theorem State.touchKey_hostHolds (s : State) (c : CoreNo) (k : Nat) (wr : Bool) (l : Nat) (w : Bool) :
    (s.touchKey c k wr).hostHolds l w = s.hostHolds l w := by
  rw [s.touchKey_same c k wr]; rfl

@[simp] theorem State.noteRead_poisoned (s : State) (c : CoreNo) (l w r k : Nat) :
    (s.noteRead c l w r).poisoned k = s.poisoned k := by
  rw [s.noteRead_same c l w r]; rfl

@[simp] theorem State.noteWrite_poisoned (s : State) (c : CoreNo) (l w k : Nat) :
    (s.noteWrite c l w).poisoned k = s.poisoned k := by
  rw [s.noteWrite_same c l w]; rfl

/-- An access to a local memory may wake a die, but a die that is woken is not lost by it. -/
@[simp] theorem State.touchKey_poisoned (s : State) (c : CoreNo) (k : Nat) (wr : Bool) (l : Nat) :
    (s.touchKey c k wr).poisoned l = s.poisoned l := by
  unfold State.touchKey
  cases wr <;> simp [apply_ite (fun t : State => t.poisoned l)]

/-! ### Device memory in firmware mode -/

theorem State.phys_device (s : State) {pa : Nat} (h : pa < 2 ^ 40) : s.phys pa = .device := if_pos h

/-- Firmware mode translates nothing (R383). -/
theorem State.translate_firmware (s : State) {c : Ctx} {va : Dword} (k : AccessKind) (hm : c.mode = 2)
    (h : va.toNat < 2 ^ 40) : s.translate c va k = .ok va.toNat s := by
  simp only [State.translate, hm, if_true, s.phys_device h]
  rw [if_neg (by omega), if_neg (by simp)]

theorem State.locate_firmware (s : State) {c : Ctx} {va : Dword} (n : Nat) (k : AccessKind) (hm : c.mode = 2)
    (h : va.toNat < 2 ^ 40) : s.locate c va n k = .ok (.glob va.toNat) s := by
  simp [State.locate, locOf, isLocal_small va h, s.translate_firmware k hm h, s.phys_device h]

theorem fld_top_small {va : Dword} (h : va.toNat < 2 ^ 40) : fld va 56 8 = (0 : BitVec 8) := by
  apply BitVec.eq_of_toNat_eq
  rw [fld, BitVec.extractLsb'_toNat, Nat.shiftRight_eq_div_pow, Nat.div_eq_of_lt (by omega)]
  rfl

theorem fld_line_aligned {va : Dword} (h : va.toNat % 64 = 0) : fld va 0 6 = (0 : BitVec 6) := by
  apply BitVec.eq_of_toNat_eq
  simpa [fld] using h

/-- A range that stays within one page of device memory is one run, which begins at its address (R255). -/
theorem State.rangePages_one_page (s : State) {c : Ctx} (off n : Nat) {va : Dword} {left : Nat} (hm : c.mode = 2)
    (h : va.toNat < 2 ^ 40) (h0 : left ≠ 0) (hp : va.toNat % 4096 + left ≤ 4096) :
    s.rangePages c off (n + 2) va left = .ok [{ pa := va.toNat, off := off, len := left }] s := by
  have hk : min left (4096 - va.toNat % 4096) = left := by omega
  simp [State.rangePages, h0, hk, s.translate_firmware .write hm h]

/-! ### The checks of a range (R255) -/

/-- Once the range itself is refused, some refusal stands. -/
theorem refusal_ne_zero (p q : Prop) [Decidable p] [Decidable q] : (if p then 1 else if q then 2 else 3) ≠ 0 := by
  by_cases hp : p
  · rw [if_pos hp]; decide
  · rw [if_neg hp]
    by_cases hq : q
    · rw [if_pos hq]; decide
    · rw [if_neg hq]; decide

/-- A descriptor that R255 accepts names a range with bytes. -/
theorem len_ne_zero_of_rangeCode {base len w w3 : Dword} (h : rangeCode base len w w3 = 0) : len.toNat ≠ 0 := by
  intro h0
  have hl : len = 0 := BitVec.eq_of_toNat_eq h0
  subst hl
  unfold rangeCode at h
  simp only [decide_true, Bool.or_true, Bool.true_or, if_true] at h
  exact refusal_ne_zero _ _ h

theorem CRange.line_of_mem_lineOffs {r : CRange} {p : Nat × Nat} (h : p ∈ r.lineOffs) : p.1 ∈ r.runs.flatMap Run.lines := by
  simp only [CRange.lineOffs, List.mem_flatMap, List.mem_map] at h
  obtain ⟨u, hu, l, hl, rfl⟩ := h
  exact List.mem_flatMap.2 ⟨u, hu, hl⟩

/-- A range with no line that is POISON or that the host may hold goes on. -/
theorem State.rangeReady_ok (s : State) (va : Dword) (r : CRange) (k : Out)
    (h : ∀ p ∈ r.lineOffs, s.poisoned p.1 = false ∧ s.hostHolds p.1 true = false) : s.rangeReady va r k = k := by
  have hp : r.lineOffs.find? (fun p => s.poisoned p.1) = none := by
    rw [List.find?_eq_none]; intro p hm; simp [(h p hm).1]
  have hh : r.lineOffs.find? (fun p => s.hostHolds p.1 true) = none := by
    rw [List.find?_eq_none]; intro p hm; simp [(h p hm).2]
  simp only [State.rangeReady, hp, hh]

theorem State.release_ok (s : State) (n : Nat) (k : Out) (h : s.outstanding 0xFFFF n = false) : s.release n k = k :=
  if_neg (by rw [h]; exact Bool.false_ne_true)

theorem State.namesLink_of_plain (s : State) (d a : RegNo) (h : s.slot.lm = true → d.toNat < 28 ∧ a.toNat < 28) :
    s.namesLink [d, a] = false := by
  cases hl : s.slot.lm
  · simp [State.namesLink, hl]
  · have := h hl
    simp [State.namesLink, hl]; omega

/-! ### Declaring a range -/

/-- The run that a descriptor names, where it stays within one page. -/
def declaredRun (v : Nat) : Run := { pa := (descWord v 0).toNat, off := 0, len := (descWord v 1).toNat }

/-- The range that a descriptor declares, where it stays within one page, before its partials are read. -/
def declaredRange (v : Nat) : CRange :=
  { runs := [declaredRun v], rm := fld (descWord v 2) 12 3, op := fld (descWord v 2) 8 3, fmt := fld (descWord v 2) 0 5,
    parts := [], ucopies := [] }

/-- The range of a descriptor is declared: its lines go to their homes, the dies that hold it are in use, its partials start
from memory, and what no longer fits leaves their caches (R220, R226, R256, R449). -/
def State.withDeclared (s : State) (v : Nat) : State :=
  let dies := allDies.filter fun k => (declaredRange v).pinned k ≠ 0
  let s := dies.foldl State.touchDie ((declaredRun v).lines.foldl State.onlyHome s.syncPoint)
  dies.foldl State.fitCache { s with ranges := { declaredRange v with parts := s.rangeStart (declaredRange v) } :: s.ranges }

/-- A one-page descriptor of device memory passes the checks of R255 in `s`. -/
structure State.Declares (s : State) (v : Nat) : Prop where
  code : rangeCode (descWord v 0) (descWord v 1) (descWord v 2) (descWord v 3) = 0
  page : (declaredRun v).pa % 4096 + (declaredRun v).len ≤ 4096
  device : (declaredRun v).pa < 2 ^ 40
  apart : s.touchesRange (declaredRun v).pa (declaredRun v).len = false
  fits : ∀ k, s.pinned k + (declaredRange v).pinned k ≤ pinLimit
  free : ∀ l ∈ (declaredRun v).lines, s.poisoned l = false ∧ s.hostHolds l true = false

/-- Reading the descriptor changes none of its checks. -/
theorem State.Declares.touchKey {s : State} {v : Nat} (h : s.Declares v) (c : CoreNo) (k : Nat) (wr : Bool) :
    (s.touchKey c k wr).Declares v where
  code := h.code
  page := h.page
  device := h.device
  apart := by simpa using h.apart
  fits := by simpa using h.fits
  free := by simpa using h.free

theorem State.Declares.rangeReady {s : State} {v : Nat} (h : s.Declares v) (va : Dword) (k : Out) :
    s.rangeReady va (declaredRange v) k = k :=
  s.rangeReady_ok va _ k fun p hp => h.free p.1 (by simpa [declaredRange] using CRange.line_of_mem_lineOffs hp)

theorem State.Declares.rangePages {s : State} {v : Nat} (h : s.Declares v) (hm : s.slot.mode = 2) :
    s.rangePages s.ctx 0 ((descWord v 1).toNat / 4096 + 2) (descWord v 0) (descWord v 1).toNat = .ok [declaredRun v] s :=
  s.rangePages_one_page 0 _ (by simpa using hm) h.device (len_ne_zero_of_rangeCode h.code) h.page

/-- In firmware mode crange declares the range of a descriptor that passes (R255, R256). -/
theorem State.Declares.declareRange {s : State} {v : Nat} (h : s.Declares v) (d : RegNo) (hm : s.slot.mode = 2)
    (ho : s.outstanding 0xFFFF 5 = false) : s.declareRange d v = .next ((s.withDeclared v).setX d 0) := by
  have hdevice : ¬([declaredRun v].any fun u => !(s.phys u.pa = .device)) = true := by simp [s.phys_device h.device]
  have hapart : ¬([declaredRun v].any fun u => s.touchesRange u.pa u.len) = true := by simp [h.apart]
  have hfits : ¬(allDies.any fun k =>
      (declaredRange v).pinned k ≠ 0 && pinLimit < s.pinned k + (declaredRange v).pinned k) = true := by
    simp [h.fits]
  have hlines : [declaredRun v].flatMap Run.lines = (declaredRun v).lines := by simp
  change (if rangeCode (descWord v 0) (descWord v 1) (descWord v 2) (descWord v 3) ≠ 0 then _
    else (s.rangePages s.ctx 0 ((descWord v 1).toNat / 4096 + 2) (descWord v 0) (descWord v 1).toNat).out _) = _
  rw [if_neg (absurd h.code), h.rangePages hm, Res.out_ok]
  refine (if_neg hdevice).trans <| (if_neg hapart).trans <| (if_neg hfits).trans <| (h.rangeReady _ _).trans <|
    (s.release_ok _ _ ho).trans ?_
  rw [hlines]
  rfl

/-- crange of a descriptor in local memory that passes. -/
theorem exec_crange_declares {s : State} {d a : RegNo} {key : Nat} (hl : s.namesLink [d, a] = false)
    (hr : s.RawAt (s.getX a) 32 key false) (hm : s.slot.mode = 2) (ho : s.outstanding 0xFFFF 5 = false)
    (h : s.Declares (s.mem.read key 32)) :
    exec (.crange d a) s
      = .next (((s.touchKey s.coreNo key false).withDeclared (s.mem.read key 32)).setX d 0) := by
  have hload := s.load_raw 32 hr
  rw [State.ctxC_zero] at hload
  change execCrange d a s = _
  simp only [execCrange, hl, hload, Res.out_ok]
  exact (h.touchKey s.coreNo key false).declareRange d (by simpa using hm) (by simpa using ho)

/-! ### Dropping a range -/

/-- In firmware mode crange.drop of a line of device memory looks for a range with that base (R255, R256). -/
theorem exec_crangeDrop_device {s : State} {d a : RegNo} (hl : s.namesLink [d, a] = false) (hm : s.slot.mode = 2)
    (hva : (s.getX a).toNat < 2 ^ 40) (hal : (s.getX a).toNat % 64 = 0) :
    exec (.crangeDrop d a) s
      = (s.ranges.find? fun r => r.base = (s.getX a).toNat).elim (.next (s.setX d 6)) fun r =>
          s.rangeReady (s.getX a) r (s.release 5 (.next ((s.dropRange r).syncPoint.setX d 0))) := by
  have hloc := s.locate_firmware (c := s.ctx) 64 .write (by simpa using hm) hva
  change execCrangeDrop d a s = _
  simp only [execCrangeDrop, hl, fld_top_small hva, fld_line_aligned hal, hloc, Res.out_ok]
  cases s.ranges.find? fun r => r.base = (s.getX a).toNat <;> rfl

/-- Settles O32: crange by its checks one by one, crange.drop by its lookup. -/
theorem rangesAreDeclaredAndDropped : Obligations.RangesAreDeclaredAndDropped := by
  intro s d a key hlinks ho hm
  have hl := s.namesLink_of_plain d a hlinks
  constructor
  · intro hr w base len u r hcode hpage hdev hapart hfits hfree dies s1
    exact exec_crange_declares hl hr hm ho ⟨hcode, hpage, hdev, hapart, hfits, hfree⟩
  · intro va hva hal
    rw [exec_crangeDrop_device hl hm hva hal]
    constructor
    · intro r hfind hready
      rw [hfind, Option.elim_some, s.rangeReady_ok _ _ _ hready, s.release_ok _ _ ho]
    · intro hfind
      rw [hfind, Option.elim_none]

end Sys2Proof.Machine
end

section
/-! PROOFS. The movement forms rearrange the elements of their source (R130, R146, R148 to R150). -/

namespace Sys2Proof.Machine

/-! ### The checks of a vector instruction (R66) -/

@[simp] theorem State.namesLink_nil (s : State) : s.namesLink [] = false := Bool.and_false _

theorem State.namesLink_singleton (s : State) (b : RegNo) (h : s.slot.lm = true → b.toNat < 28) :
    s.namesLink [b] = false := by
  cases hl : s.slot.lm
  · simp [State.namesLink, hl]
  · simpa [State.namesLink, hl] using h hl

/-- A vector instruction that passes every check of R66, and whose operands are there, completes. -/
theorem State.vgate_ok (s : State) {regs : List RegNo} {c4 c5 c6 ready : Bool} (k : Out)
    (hlink : s.namesLink regs = false) (hvill : s.slot.vill = false) (h4 : c4 = true) (h5 : c5 = true)
    (h6 : c6 = true) (hready : ready = true) : s.vgate regs c4 c5 c6 ready k = k := by
  subst h4 h5 h6 hready
  simp [State.vgate, hlink, hvill]

/-! ### Forms that read their source as a whole (R146, R149) -/

/-- A form of `vmove` whose operands are there writes `f` of the source group to the elements `act`. -/
theorem State.vmove_ok (s : State) {regs : List RegNo} {d a m : RegNo} (act : List Nat) (f : Nat → Nat → Nat)
    (h : s.VMoveOk d a m) (hapart : overlaps d s.gN a s.gN = false) (hlink : s.namesLink regs = false) :
    s.vmove regs d a m act f
      = .next (s.vwriteQuiet d s.gN s.ew (s.vtag a) act (f (s.group a s.gN))) := by
  obtain ⟨⟨hvill, hgroup, hmask⟩, htag, hsrc, hready⟩ := h
  exact s.vgate_ok _ hlink hvill
    (by simp [hgroup, hmask, hapart]) (by simp [htag]) rfl (by simp [hsrc, hready])

/-- The index operand of vperm is one more operand of `vready` (R26, R146). -/
theorem State.vready_singleton (s : State) (b d m : RegNo) :
    s.vready [b] d m = (s.readable b s.vlN && s.vready [] d m) := by
  simp [State.vready, Bool.and_assoc]

theorem exec_vperm_ok {s : State} {d a b m : RegNo} (h : s.VMoveOk d a m) (hapart : overlaps d s.gN a s.gN = false)
    (hgb : groupOk b s.gN = true) (hbapart : overlaps d s.gN b s.gN = false) (hew : 8 ≤ s.ew)
    (hb : s.readable b s.vlN = true) :
    exec (.vperm d a b m) s = .next (s.vwriteQuiet d s.gN s.ew (s.vtag a) (s.actives m) fun i =>
      if elemAt (s.group b s.gN) s.ew i < s.vlmax then elemAt (s.group a s.gN) s.ew (elemAt (s.group b s.gN) s.ew i)
      else 0) := by
  obtain ⟨⟨hvill, hgroup, hmask⟩, htag, hsrc, hready⟩ := h
  exact s.vgate_ok _ s.namesLink_nil hvill
    (by simp [hgroup, hgb, hmask, hew, hapart, hbapart]) (by simp [htag]) rfl
    (by simp [hsrc, s.vready_singleton, hb, hready])

/-! ### Equal elements (R148) -/

/-- The number of the first of the elements `act` that has the bits of element `i`. -/
def leaderAmong (act : List Nat) (x : Nat → Nat) (i : Nat) : Nat := (act.find? fun j => x j = x i).getD i

/-- FLAGS of a vector compare, bit by bit: ALL, SOME, NONE (R19). -/
theorem vectorFlags_eq_or (ts : List Bool) :
    vectorFlags ts = (if ts.all id then 4#3 else 0) ||| (if ts.any id then 2 else 0) ||| (if ts.any id then 0 else 1) := by
  unfold vectorFlags
  cases ts.all id <;> cases ts.any id <;> rfl

/-- vmatch writes the leaders and sets FLAGS as a compare whose result is "is a leader"; its destination may be its
source. -/
theorem exec_vmatch_ok {s : State} {d a m : RegNo} (h : s.VMoveOk d a m) (hew : 16 ≤ s.ew) :
    exec (.vmatch d a m) s =
      let leader := leaderAmong (s.actives m) (elemAt (s.group a s.gN) s.ew)
      .next ((s.vwriteQuiet d s.gN s.ew (intTag s.ew) (s.actives m) leader).setFlags
        (vectorFlags ((s.actives m).map fun i => leader i = i))) := by
  obtain ⟨⟨hvill, hgroup, hmask⟩, htag, hsrc, hready⟩ := h
  exact s.vgate_ok _ s.namesLink_nil hvill
    (by simp [hgroup, hmask, hew]) (by simp [htag]) rfl (by simp [hsrc, hready])

/-! ### Packed fields (R150) -/

/-- vunpack checks its run of registers in place of a group. -/
theorem exec_vunpack_ok {s : State} {d a m : RegNo} {n : Nat}
    (hn : n = ceilDiv (s.vlN * tagReg (s.vtag a)) s.regBits) (hg : s.Groups [d] m) (h8 : n ≤ 8)
    (hend : a.toNat + n ≤ 32) (hapart : overlaps d s.gN a n = false) (hint : tagInt (s.vtag a) = true)
    (hw : tagReg (s.vtag a) < s.ew) (hready : s.vready [] d m = true)
    (hsrc : s.readableAs a n (tagReg (s.vtag a)) s.vlN = true) :
    exec (.vunpack d a m) s = .next (s.vwriteQuiet d s.gN s.ew (intTag s.ew) (s.actives m) fun i =>
      if tagIsI (s.vtag a) then codeOf s.ew (signedOf (tagReg (s.vtag a)) (elemAt (s.group a n) (tagReg (s.vtag a)) i))
      else elemAt (s.group a n) (tagReg (s.vtag a)) i) := by
  obtain ⟨hvill, hgroup, hmask⟩ := hg
  subst hn
  exact s.vgate_ok _ s.namesLink_nil hvill (by simp [hgroup, hmask, h8, hend, hapart])
    (by simp [hint, hw]) rfl (by simp [hready, hsrc])

/-- Settles O20: every movement form passes its checks, and then writes the elements that it names. -/
theorem vectorMovementResults : Obligations.VectorMovementResults := by
  intro s d a b m t act x out
  refine ⟨fun h hapart => ⟨fun hlink => ?_, ?_, ?_, ?_, ?_⟩, fun h hew => ?_, ?_⟩
  · change execVslide d a b m s = _
    rw [execVslide, s.vmove_ok _ _ h hapart (s.namesLink_singleton b hlink)]
  · change execVexpand d a m s = _
    rw [execVexpand, s.vmove_ok _ _ h hapart s.namesLink_nil]
  · change execVcompress d a m s = _
    rw [execVcompress, s.vmove_ok _ _ h hapart s.namesLink_nil]
  · change execVrev d a m s = _
    rw [execVrev, s.vmove_ok _ _ h hapart s.namesLink_nil]
  · exact exec_vperm_ok h hapart
  · intro leader ts
    rw [← vectorFlags_eq_or]
    exact exec_vmatch_ok h hew
  · exact exec_vunpack_ok rfl

end Sys2Proof.Machine
end

section
/-! PROOFS. Traps are taken and returned from (R191, R203, R373, R375 to R379, R393). -/

namespace Sys2Proof.Machine

/-! ### Cores by number -/

theorem aget_aset {α : Type} (d : α) (l : List (Nat × α)) (k j : Nat) (a : α) :
    aget d (aset l k a) j = if j = k then a else aget d l j := by
  induction l with
  | nil => simp [aset, aget, eq_comm]
  | cons p l ih =>
    obtain ⟨m, b⟩ := p
    by_cases hm : m = k
    · subst hm
      by_cases hj : m = j
      · simp [aset, aget, hj]
      · simp [aset, aget, hj, Ne.symm hj]
    · by_cases hj : m = j
      · subst hj; simp [aset, aget, hm]
      · simp [aset, aget, hm, hj, ih]

theorem State.getCore_setCore (s : State) (c k : CoreNo) (v : Core) :
    (s.setCore c v).getCore k = if k = c then v else s.getCore k := by
  unfold State.setCore
  split
  · next h =>
    subst h
    change (if k = s.coreNo then v else aget (s.coreDefault k) s.otherCores k.toNat) = _
    by_cases hk : k = s.coreNo <;> simp [State.getCore, hk]
  · next h =>
    change (if k = s.coreNo then s.core else aget (s.coreDefault k) (aset s.otherCores c.toNat v) k.toNat) = _
    rw [aget_aset]
    by_cases hk : k = c
    · subst hk; simp [h]
    · simp [State.getCore, hk, BitVec.toNat_inj]

/-! ### The words of links that a slot gives up (R203, R379) -/

/-- From `s` to `t` no more than the link queues of cores has changed. -/
def State.LinkMove (s t : State) : Prop :=
  t = { s with core := t.core, otherCores := t.otherCores }
    ∧ ∀ c, t.getCore c = { s.getCore c with links := (t.getCore c).links }

theorem State.LinkMove.refl (s : State) : s.LinkMove s := ⟨rfl, fun _ => rfl⟩

theorem State.LinkMove.trans {s t u : State} (h : s.LinkMove t) (k : t.LinkMove u) : s.LinkMove u := by
  obtain ⟨hst, hlinks⟩ := h
  obtain ⟨htu, klinks⟩ := k
  refine ⟨by rw [htu, hst], fun c => ?_⟩
  rw [klinks c, hlinks c]

theorem State.LinkMove.foldl {α : Type} {f : State → α → State} (hf : ∀ s a, State.LinkMove s (f s a)) (l : List α)
    (s : State) : s.LinkMove (l.foldl f s) := by
  induction l generalizing s with
  | nil => exact .refl s
  | cons a l ih => exact (hf s a).trans (ih _)

theorem State.modLink_linkMove (s : State) (c : CoreNo) (d : Fin 4) (f : List LinkWord → List LinkWord) :
    s.LinkMove (s.modCore c fun k => k.modLink d f) := by
  refine ⟨?_, fun k => ?_⟩
  · unfold State.modCore State.setCore
    split <;> rfl
  · rw [State.modCore, State.getCore_setCore]
    split
    · next h => subst h; rfl
    · rfl

/-- The state after the link words are given up. -/
theorem State.releaseLinks_frame (s : State) : s.releaseLinks =
      { s with
        slot := { s.slot with linked := false },
        core := s.releaseLinks.core, otherCores := s.releaseLinks.otherCores }
    ∧ ∀ c, s.releaseLinks.getCore c = { s.getCore c with links := (s.releaseLinks.getCore c).links } := by
  unfold State.releaseLinks
  split
  · extract_lets t
    have h : s.LinkMove t := by
      refine .foldl (fun s d => ?_) _ s
      dsimp only
      rw [← State.modCore_self]
      refine (s.modLink_linkMove s.coreNo d (releaseWords s.slotNo)).trans ?_
      split
      · exact State.modLink_linkMove _ _ _ _
      · exact .refl _
    obtain ⟨ht, hlinks⟩ := h
    exact ⟨by rw [ht]; rfl, hlinks⟩
  · next h =>
    rw [Bool.not_eq_true] at h
    exact ⟨by rw [← h], fun _ => rfl⟩

@[simp] theorem State.releaseLinks_slot (s : State) : s.releaseLinks.slot = { s.slot with linked := false } := by
  rw [s.releaseLinks_frame.1]
@[simp] theorem State.releaseLinks_slotNo (s : State) : s.releaseLinks.slotNo = s.slotNo := by
  rw [s.releaseLinks_frame.1]
@[simp] theorem State.releaseLinks_others (s : State) : s.releaseLinks.others = s.others := by
  rw [s.releaseLinks_frame.1]
@[simp] theorem State.releaseLinks_mem (s : State) : s.releaseLinks.mem = s.mem := by rw [s.releaseLinks_frame.1]

/-- A slot that holds no word gives up none. -/
theorem State.releaseLinks_of_not_linked (s : State) (h : s.slot.linked = false) : s.releaseLinks = s :=
  if_neg (by simp [h])

/-! ### Fields of a word -/

theorem fld_eq_of_toNat {w : Dword} {lo n : Nat} {v : BitVec n} (h : w.toNat / 2 ^ lo % 2 ^ n = v.toNat) :
    fld w lo n = v :=
  BitVec.eq_of_toNat_eq (by rw [fld, BitVec.extractLsb'_toNat, Nat.shiftRight_eq_div_pow, h])

theorem getLsbD_eq_of_toNat {w : Dword} {k : Nat} {b : Bool} (h : w.toNat / 2 ^ k % 2 = b2n b) : w.getLsbD k = b := by
  rw [BitVec.getLsbD, Nat.testBit_eq_decide_div_mod_eq, h]
  cases b <;> rfl

theorem b2n_le_one (b : Bool) : b2n b ≤ 1 := by cases b <;> decide

/-- BUSY, bit 63, stands above every other field of TCAUSE. -/
theorem toNat_or_busy {w : Dword} (h : w.toNat < 2 ^ 63) : (w ||| 0x8000000000000000).toNat = 2 ^ 63 + w.toNat := by
  rw [BitVec.toNat_or, Nat.or_comm]
  exact (Nat.two_pow_add_eq_or_of_lt h 1).symm

/-- TCAUSE as a sum of its fields, each in its place (R376). -/
theorem Slot.tcauseOf_toNat (t : Slot) (i : TrapInfo) :
    (t.tcauseOf i).toNat = i.cause.toNat + i.eng.toNat * 2 ^ 28 + (i.elem.getD 0).toNat * 2 ^ 32 + b2n i.arr * 2 ^ 54
      + b2n i.elem.isSome * 2 ^ 55 + (t.trapBpos i).toNat * 2 ^ 56 + b2n t.loop * 2 ^ 62 := by
  have := b2n_le_one i.arr
  have := b2n_le_one i.elem.isSome
  have := b2n_le_one t.loop
  rw [Slot.tcauseOf, BitVec.toNat_ofNat]
  omega

/-- The fields of TCAUSE as local entry writes it (R376). -/
theorem Slot.localEntry_tcause (t : Slot) (i : TrapInfo) :
    let w := (t.localEntry i).tcause
    fld w 0 16 = i.cause ∧ fld w 28 4 = i.eng ∧ w.getLsbD 63 = true ∧ w.getLsbD 62 = t.loop ∧ w.getLsbD 54 = i.arr
      ∧ w.getLsbD 55 = i.elem.isSome ∧ fld w 32 16 = i.elem.getD 0 := by
  intro w
  have harr := b2n_le_one i.arr
  have hev := b2n_le_one i.elem.isSome
  have hloop := b2n_le_one t.loop
  have hsum := t.tcauseOf_toNat i
  have hw : w.toNat = 2 ^ 63 + (t.tcauseOf i).toNat := toNat_or_busy (by omega)
  rw [hsum] at hw
  clear hsum
  have hbusy : b2n true = 1 := rfl
  refine ⟨fld_eq_of_toNat ?_, fld_eq_of_toNat ?_, getLsbD_eq_of_toNat ?_, getLsbD_eq_of_toNat ?_,
    getLsbD_eq_of_toNat ?_, getLsbD_eq_of_toNat ?_, fld_eq_of_toNat ?_⟩ <;> omega

/-- The handler's address is TVEC.ADDR, its two low bits 0 (R376). -/
theorem Slot.handler_toNat (t : Slot) : t.handler.toNat = t.tvec.toNat % 2 ^ 56 / 4 * 4 := by
  have h : t.handler = (fld t.tvec 0 56 >>> 2) <<< 2 := by
    unfold Slot.handler
    ext k hk
    have h3 : (3#56)[k] = decide (k < 2) := Nat.testBit_two_pow_sub_one 2 k
    rw [BitVec.getElem_and, BitVec.getElem_not, BitVec.getElem_shiftLeft, h3]
    by_cases hlow : k < 2
    · simp [hlow]
    · simp [hlow, show 2 + (k - 2) = k by omega, BitVec.getLsbD_eq_getElem hk]
  rw [h, fld, BitVec.toNat_shiftLeft, BitVec.toNat_ushiftRight, BitVec.extractLsb'_toNat]
  simp only [Nat.shiftRight_eq_div_pow, Nat.shiftLeft_eq]
  omega

/-! ### What a trap carries (R191, R377, log 52) -/

theorem Slot.carried_of_after (t : Slot) {i : TrapInfo} (h : i.after = true) : t.carried i = i := if_pos h

theorem Slot.carried_of_no_arrival (t : Slot) {i : TrapInfo} (h : i.after = false) (ha : t.arrTok = none) :
    t.carried i = { i with elem := if i.elem.isSome then i.elem else t.restart } := by
  simp [Slot.carried, h, ha]

/-- A detail of the trap itself keeps the arrival out of a local trap alone (log 52). -/
theorem Slot.carried_of_arrival (t : Slot) {i : TrapInfo} {tok : BitVec 32} (h : i.after = false) (ha : t.arrTok = some tok) :
    t.carried i =
      if t.deliversLocally i && i.txval ≠ 0 then { i with elem := if i.elem.isSome then i.elem else t.restart }
      else { i with
        elem := if i.elem.isSome then i.elem else t.restart, arr := true, token := tok,
        txval := if i.txval = 0 then tok.setWidth 64 else i.txval } := by
  simp [Slot.carried, h, ha, Slot.deliversLocally]

/-- The restart element and the arrival are all that is added to a trap. -/
theorem Slot.carried_frame (t : Slot) (i : TrapInfo) :
    t.carried i = { i with
      elem := (t.carried i).elem, arr := (t.carried i).arr, token := (t.carried i).token, txval := (t.carried i).txval } := by
  by_cases h : i.after = true
  · rw [t.carried_of_after h]
  · rw [Bool.not_eq_true] at h
    cases ha : t.arrTok with
    | none => rw [t.carried_of_no_arrival h ha]
    | some tok => rw [t.carried_of_arrival h ha]; split <;> rfl

@[simp] theorem Slot.carried_cause (t : Slot) (i : TrapInfo) : (t.carried i).cause = i.cause := by rw [carried_frame]
@[simp] theorem Slot.carried_tval (t : Slot) (i : TrapInfo) : (t.carried i).tval = i.tval := by rw [carried_frame]
@[simp] theorem Slot.carried_eng (t : Slot) (i : TrapInfo) : (t.carried i).eng = i.eng := by rw [carried_frame]
@[simp] theorem Slot.carried_after (t : Slot) (i : TrapInfo) : (t.carried i).after = i.after := by rw [carried_frame]

theorem Slot.carried_elem (t : Slot) {i : TrapInfo} (h : i.after = false) :
    (t.carried i).elem = if i.elem.isSome then i.elem else t.restart := by
  cases ha : t.arrTok with
  | none => rw [t.carried_of_no_arrival h ha]
  | some tok => rw [t.carried_of_arrival h ha]; split <;> rfl

@[simp] theorem Slot.deliversLocally_carried (t u : Slot) (i : TrapInfo) :
    u.deliversLocally (t.carried i) = u.deliversLocally i := by
  simp [Slot.deliversLocally]

@[simp] theorem Slot.trapPc_carried (t u : Slot) (i : TrapInfo) : u.trapPc (t.carried i) = u.trapPc i := by
  simp [Slot.trapPc]

theorem localCause_iff (c : BitVec 16) :
    localCause c = true ↔ c.toNat ∈ [1, 2, 3, 4, 5, 6, 7, 8, 12, 13, 15, 16, 17, 18, 19, 20, 21] := by
  simp only [localCause, Bool.or_eq_true, Bool.and_eq_true, decide_eq_true_eq, List.mem_cons, List.not_mem_nil,
    or_false]
  omega

/-! ### Where a trap goes (R375, R376, R379) -/

theorem Slot.deliversLocally_iff (t : Slot) (i : TrapInfo) :
    t.deliversLocally i = true ↔ localCause i.cause = true ∧ t.tvec.getLsbD 0 = true ∧ t.tcause.getLsbD 63 = false := by
  simp only [Slot.deliversLocally, Slot.tvecEn, Slot.busy, Bool.and_eq_true, Bool.not_eq_true', and_assoc]

theorem State.takeTrap_local (s : State) {i : TrapInfo} (h : s.releaseLinks.slot.deliversLocally i = true) :
    s.takeTrap i = { s.releaseLinks with
      slot := s.releaseLinks.slot.localEntry (s.releaseLinks.slot.carried i) } :=
  if_pos (by rwa [Slot.deliversLocally_carried])

theorem State.takeTrap_domain (s : State) {i : TrapInfo} (h : s.releaseLinks.slot.deliversLocally i = false) :
    s.takeTrap i =
      let u := s.releaseLinks
      let j := u.slot.carried i
      { u with slot := u.slot.domainEntry j (u.faultRecord u.slotNo u.slot j) } :=
  if_neg (by rw [Slot.deliversLocally_carried, h]; exact Bool.false_ne_true)

/-- A running slot takes a trap that is due where it stands. -/
theorem State.dueTrap_running (s : State) (i : TrapInfo) (h : s.slot.st = .running) :
    s.dueTrap i = ((s.withdraw s.slotNo).upd Slot.unparkTrap).takeTrap i := by
  have hkeep : (s.withdraw s.slotNo).slot.keepArrival = s.slot := by simp [Slot.keepArrival, State.withdraw, h]
  simp only [State.dueTrap, State.upd, hkeep]
  rfl

@[simp] theorem State.focus_arg (s : State) (n : SlotNo) : (s.focus n).arg = s.arg := by
  unfold State.focus
  split <;> rfl

theorem exec_localTrapEntry_running {s : State} (hrun : (s.focus s.arg.n).slot.st = .running)
    (h : (s.focus s.arg.n).slot.deliversLocally s.arg.trap = true) :
    exec .localTrapEntry s = .next ((s.focus s.arg.n).dueTrap s.arg.trap) := by
  change execLocalTrapEntry s = _
  simp [execLocalTrapEntry, hrun, h]

theorem exec_faultDomainDelivery_running {s : State} (hrun : (s.focus s.arg.n).slot.st = .running)
    (h : (s.focus s.arg.n).slot.deliversLocally s.arg.trap = false) :
    exec .faultDomainDelivery s = .next ((s.focus s.arg.n).dueTrap s.arg.trap) := by
  change execFaultDomainDelivery s = _
  simp [execFaultDomainDelivery, hrun, h]

/-! ### sys, brk and tret (R378, R393) -/

theorem State.callTrap_eq (s : State) (i : TrapInfo) :
    s.callTrap i = .next (if s.slot.fences = [] then s.takeTrap { i with after := true } else s.holdOn) := by
  unfold State.callTrap State.trap
  simp only [List.isEmpty_iff]
  split <;> rfl

theorem exec_tret_busy {s : State} (hloop : s.slot.loop = false) (hbusy : s.slot.tcause.getLsbD 63 = true) :
    exec .tret s = .next (s.upd Slot.tret) := by
  change execTret s = _
  exact if_neg (by rw [Slot.busy, hloop, hbusy]; decide)

theorem exec_tret_illegal {s : State} (h : s.slot.loop = true ∨ s.slot.tcause.getLsbD 63 = false) :
    exec .tret s = .next (s.takeTrap { cause := 1, tval := s.slot.ir.setWidth 64 }) := by
  change execTret s = _
  have hcond : (s.slot.loop || !s.slot.busy) = true := by
    rw [Slot.busy]
    rcases h with hloop | hfree
    · rw [hloop, Bool.true_or]
    · rw [hfree, Bool.not_false, Bool.or_true]
  exact if_pos hcond

/-- Settles O46: a trap by where it is delivered, sys, brk and tret by their conditions, a trap that is due by its slot. -/
theorem trapsAreTakenAndReturnedFrom : Obligations.TrapsAreTakenAndReturnedFrom := by
  intro s i u t j pc'
  have hpc : t.trapPc j = pc' := t.trapPc_carried t i
  refine ⟨⟨s.releaseLinks_slot, s.releaseLinks_others, s.releaseLinks_mem, s.releaseLinks_of_not_linked,
      s.releaseLinks_frame.2⟩,
    ⟨t.carried_of_after, fun h => ⟨t.carried_cause i, t.carried_tval i, t.carried_eng i, (t.carried_after i).trans h,
      t.carried_elem h, fun ha => ?_, fun tok ha hx => ?_⟩⟩,
    (t.deliversLocally_iff i).trans (by rw [localCause_iff]), ?_, ?_, s.callTrap_eq _, s.callTrap_eq _,
    ⟨fun hloop hbusy => ⟨s.slot.tret, exec_tret_busy hloop hbusy, ?_⟩, exec_tret_illegal⟩, ?_⟩
  · change t.carried i = { i with elem := (t.carried i).elem }
    rw [t.carried_of_no_arrival h ha]
  · have hj : j = _ := (t.carried_of_arrival h ha).trans (if_neg (by simp [hx]))
    rw [hj]
    exact ⟨rfl, rfl, if_pos hx⟩
  · intro h q
    have hq : q = { u with slot := t.localEntry j } := s.takeTrap_local h
    obtain ⟨hcause, heng, hbusy, hloop, harr, hev, helem⟩ := t.localEntry_tcause j
    rw [hq]
    exact ⟨hpc, t.carried_tval i, rfl, rfl, rfl, t.handler_toNat, hcause.trans (t.carried_cause i),
      heng.trans (t.carried_eng i), hbusy, hloop, harr, hev, helem, rfl⟩
  · intro h q
    have hq : q = { u with slot := t.domainEntry j (u.faultRecord u.slotNo t j) } := s.takeTrap_domain h
    rw [hq]
    refine ⟨rfl, rfl, hpc, rfl, rfl, rfl, rfl, fun ha => if_pos ha, ⟨_, rfl, ?_, t.carried_tval i, rfl, rfl, ?_, ?_⟩, rfl⟩
    · exact congrArg (BitVec.setWidth 64) (t.carried_cause i)
    · exact congrArg (BitVec.setWidth 64) hpc
    · exact congrArg (fun n => t.regionH ++ (t.seq + 1) ++ n) s.releaseLinks_slotNo
  · exact ⟨rfl, rfl, rfl, rfl, fun h => if_pos h, rfl, rfl, rfl⟩
  · intro z hrun y
    have hy : z.dueTrap s.arg.trap = y.takeTrap s.arg.trap := State.dueTrap_running _ _ hrun
    rw [← hy]
    exact ⟨exec_localTrapEntry_running hrun, exec_faultDomainDelivery_running hrun⟩

end Sys2Proof.Machine
end
